-- ==== Sys2Proof/Word.lean ====
section
/-! DEFINITION. The word types of FENC: the widths its registers, fields and bytes have (00_scope R6, 10_state R10). -/

namespace Sys2Proof

/-- A byte, 8 bits (R6). -/
abbrev Byte := BitVec 8

/-- A 16-bit word: YEAR, F_LEN, idx, AID_MASK. -/
abbrev Half := BitVec 16

/-- A 32-bit word: PLEN, and the image of a scaled coordinate. -/
abbrev Word := BitVec 32

/-- A 64-bit word: a binary64 bit pattern in LAT, LON or ALT. -/
abbrev Double := BitVec 64

end Sys2Proof
end

