-- ==== Sys2Proof/Config.lean ====
section
/-! DEFINITION. What one FENC instance fixes (00_scope R4, R5) and the values the spec leaves open (93 U2, U4, U5). -/

namespace Sys2Proof

/-- The sink's report for a whole transaction (41_frame_encoder R110, R111). -/
inductive SinkAnswer where
  | ackOk
  | ackFail
deriving DecidableEq, Repr, Inhabited

namespace Config

/-! ## Fixed constants (R4) -/

/-- LEN_MAX: the largest payload length a frame can carry (R4). -/
abbrev lenMax : Nat := 65535

/-- AID_LEN: the length of the AidingPayload in bytes (R4). -/
abbrev aidLen : Nat := 48

/-- PAY_CAP: the size in bytes of the payload memory (R4, D8). -/
abbrev payCap : Nat := 65535

/-- LAT_LON_SCALE (R4). -/
abbrev latLonScale : Nat := 10000000

/-- ALT_SCALE (R4). -/
abbrev altScale : Nat := 1000

/-! ## Open parameters (R5): constants of the instance with no value here, so every claim holds for all values
(log entry 6, DESIGN CHOICE on their form only, safe). -/

/-- SYNC1: the first synchronisation byte of every frame (R5, D1). -/
opaque sync1 : Byte

/-- SYNC2: the second synchronisation byte (R5, D1). -/
opaque sync2 : Byte

/-- AID_CLASS: the message class of the aiding frame (R5, D2). -/
opaque aidClass : Byte

/-- AID_ID: the message id of the aiding frame (R5, D2). -/
opaque aidId : Byte

/-- AID_MASK: the mask flags at AidingPayload offsets 0 and 1 (R5, D3). -/
opaque aidMask : Half

/-- SINK_ADDR: the peripheral address of every transaction, a natural number (R5, D4). -/
opaque sinkAddr : Nat

/-! ## Free values -/

/-- `payInit k a`: what byte `a` of PAY holds, before the host writes it, after the `k`-th reset (R53, U2).
Log entry 5. -/
opaque payInit : Nat → Nat → Byte

/-- `sinkAck n`: the `n`-th sink answer that no entry of the environment's list fixed (R111, U5). Log entry 4. -/
opaque sinkAck : Nat → SinkAnswer

end Config
end Sys2Proof
end

