-- ==== Sys2Proof/Syntax.lean ====
section
/-! DEFINITION. The commands of FENC, the host's typed accesses, their untyped script encoding, and the agents' turns. -/

namespace Sys2Proof

/-- The commands of FENC, one constructor per row of spec/opcode_table.json. A command word has no operand field
(30_encoding R66); operands come from registers and PAY. -/
inductive Instr where
  /-- ENCODE, code 0x01 (41_frame_encoder R105). -/
  | encode
  /-- AIDSEND, code 0x02 (42_aiding_packer R139). -/
  | aidsend
deriving DecidableEq, Repr

/-- What the decoder reads from a command word: a command, or an illegal code, named by its value (R67). -/
inductive Decoded where
  | command (i : Instr)
  | illegal (v : Byte)
deriving DecidableEq, Repr

/-- A write of one of the twelve operand registers, with a value of its width (10_state R11). -/
inductive OperandWrite where
  | cls (v : Byte)
  | id (v : Byte)
  | plen (v : Word)
  | lat (v : Double)
  | lon (v : Double)
  | alt (v : Double)
  | year (v : Half)
  | month (v : Byte)
  | day (v : Byte)
  | hour (v : Byte)
  | minute (v : Byte)
  | second (v : Byte)
deriving DecidableEq, Repr

/-- The readable registers, numbers 0x01 to 0x0F (R100). CMD is not among them (R13). -/
inductive ReadReg where
  | status
  | cls
  | id
  | plen
  | lat
  | lon
  | alt
  | year
  | month
  | day
  | hour
  | minute
  | second
  | cka
  | ckb
deriving DecidableEq, Repr

/-- The targets of `HostWrite` (R101): CMD, an operand register, a byte of PAY. A target that does not exist or is
read only cannot be expressed (20_memory R40). -/
inductive HostWrite where
  | cmd (v : Byte)
  | reg (w : OperandWrite)
  | pay (a : Fin 65535) (v : Byte)
deriving DecidableEq, Repr

/-- The targets of `HostRead` (R100). -/
inductive HostRead where
  | reg (r : ReadReg)
  | pay (a : Fin 65535)
  | pb (o : Fin 48)
deriving DecidableEq, Repr

/-- One host step (00_scope R8). -/
inductive HostAccess where
  | write (w : HostWrite)
  | read (r : HostRead)
deriving DecidableEq, Repr

/-- A value of a register's width, as a host read returns it (20_memory R44). -/
inductive HostWord where
  | byte (v : Byte)
  | half (v : Half)
  | word (v : Word)
  | double (v : Double)
deriving DecidableEq, Repr

/-- The address spaces a host access names (20_memory R40). -/
inductive Space where
  | reg
  | pay
  | pb
deriving DecidableEq, Repr

/-- A host access in the untyped encoding of the script notation (30_encoding R69). -/
inductive RawAccess where
  | write (space : Space) (addr : Nat) (value : Nat)
  | read (space : Space) (addr : Nat)
deriving DecidableEq, Repr

/-- Why an untyped access is no access of FENC (20_memory R40, 93 U11; log entry 13). -/
inductive AccessReject where
  /-- No such register number, PAY address or PB offset. -/
  | noSuchTarget
  /-- A read of CMD, which is write only. -/
  | writeOnly
  /-- A write of STATUS, CKA, CKB or a byte of PB, which are read only. -/
  | readOnly
  /-- A value that does not fit the target's width. -/
  | tooWide
deriving DecidableEq, Repr

/-- One turn of the run: which agent steps, and with what (00_scope R8). `wait` is the script's WAIT (R69).
Log entry 1. -/
inductive Turn where
  | host (a : HostAccess)
  | sequencer
  | reset
  | wait
deriving DecidableEq, Repr

end Sys2Proof
end

