-- ==== Sys2Proof/WellFormed.lean ====
section
/-! DEFINITION. Well-formedness: of a command word, and of an untyped host access (20_memory R40, R44; 93 U11). -/

namespace Sys2Proof

/-- The legal command codes (10_state R13, 30_encoding R66). -/
def legalCommand (v : Byte) : Bool := v == 0x01#8 || v == 0x02#8

/-- A command has no operand field that could be out of range: every one is well formed (30_encoding R66). -/
def Instr.wellFormed : Instr → Bool
  | .encode => true
  | .aidsend => true

/-- The width in bits of register number `n`, where there is one (10_state R11, R13, R14). -/
def regWidth (n : Nat) : Option Nat :=
  if n = 4 then some 32
  else if 5 ≤ n ∧ n ≤ 7 then some 64
  else if n = 8 then some 16
  else if n ≤ 15 then some 8
  else none

/-- The target exists in its space (20_memory R40). -/
def targetExists (sp : Space) (a : Nat) : Bool :=
  match sp with
  | .reg => a ≤ 15
  | .pay => a < Config.payCap
  | .pb => a < Config.aidLen

/-- The host may write the target (R40): CMD, the operand registers, PAY. -/
def targetWritable (sp : Space) (a : Nat) : Bool :=
  match sp with
  | .reg => a == 0 || (2 ≤ a && a ≤ 13)
  | .pay => true
  | .pb => false

/-- The host may read the target (R40): all but CMD. -/
def targetReadable (sp : Space) (a : Nat) : Bool :=
  match sp with
  | .reg => a != 0
  | .pay => true
  | .pb => true

/-- The width in bits of the value a write of the target carries (20_memory R44). -/
def targetWidth (sp : Space) (a : Nat) : Nat :=
  match sp with
  | .reg => (regWidth a).getD 0
  | .pay => 8
  | .pb => 8

/-- An untyped access is well formed when its target exists, may be accessed that way, and the value has the
target's width (R40, R44, U11). -/
def RawAccess.wellFormed : RawAccess → Bool
  | .write sp a v => targetExists sp a && targetWritable sp a && decide (v < 2 ^ targetWidth sp a)
  | .read sp a => targetExists sp a && targetReadable sp a

end Sys2Proof
end

