-- ==== Sys2Proof/Decode.lean ====
section
/-! DEFINITION. Decoding a command word and an untyped host access, both total, rejecting by name; and the encoders. -/

namespace Sys2Proof

/-! ## Command words (30_encoding R66, R67) -/

/-- One row of the opcode map: the word's bits under `mask` are `pattern`. -/
structure OpcodeRow where
  mask : Byte
  pattern : Byte
  instr : Instr
deriving DecidableEq, Repr

/-- The complete opcode map (R66; spec/opcode_table.json). -/
def opcodeMap : List OpcodeRow :=
  [⟨0xFF#8, 0x01#8, .encode⟩, ⟨0xFF#8, 0x02#8, .aidsend⟩]

/-- A word matches a row of the map. -/
def OpcodeRow.covers (r : OpcodeRow) (v : Byte) : Bool := v &&& r.mask == r.pattern

/-- The command a word stands for, or its value as an illegal code (R67). -/
def decode (v : Byte) : Decoded :=
  match opcodeMap.find? (fun r => r.covers v) with
  | some r => .command r.instr
  | none => .illegal v

/-- Decoding from a list of bytes: the command of the first byte and the bytes after it. A command is one byte
(R66). -/
def decodeBytes : List Byte → Option (Decoded × List Byte)
  | [] => none
  | v :: rest => some (decode v, rest)

/-- The word of a command (R66). -/
def encode : Instr → Byte
  | .encode => 0x01#8
  | .aidsend => 0x02#8

/-- The bytes of the word `w` of `n` bits, first byte first. -/
def wordBytes (n w : Nat) : List Byte :=
  (List.range ((n + 7) / 8)).map (fun k => BitVec.ofNat 8 (w >>> (8 * k)))

/-- The instruction the decoder reads from a table word of `nbits` bits. Bits the table gives beyond the one command
byte must be absent: a longer word is no command of FENC (R66: "All eight bits are the opcode"; log entry 10). -/
def decodeTableWord (nbits w : Nat) : Option Instr :=
  match decodeBytes (wordBytes nbits w) with
  | some (.command i, []) => some i
  | some (.command _, _ :: _) => none
  | some (.illegal _, _) => none
  | none => none

/-! ## Host accesses (30_encoding R69, 10_state R11, R13, R14) -/

/-- The number of a readable register. -/
def ReadReg.number : ReadReg → Nat
  | .status => 0x01
  | .cls => 0x02
  | .id => 0x03
  | .plen => 0x04
  | .lat => 0x05
  | .lon => 0x06
  | .alt => 0x07
  | .year => 0x08
  | .month => 0x09
  | .day => 0x0A
  | .hour => 0x0B
  | .minute => 0x0C
  | .second => 0x0D
  | .cka => 0x0E
  | .ckb => 0x0F

/-- The number of the register an operand write names. -/
def OperandWrite.number : OperandWrite → Nat
  | .cls _ => 0x02
  | .id _ => 0x03
  | .plen _ => 0x04
  | .lat _ => 0x05
  | .lon _ => 0x06
  | .alt _ => 0x07
  | .year _ => 0x08
  | .month _ => 0x09
  | .day _ => 0x0A
  | .hour _ => 0x0B
  | .minute _ => 0x0C
  | .second _ => 0x0D

/-- The value an operand write carries. -/
def OperandWrite.value : OperandWrite → Nat
  | .cls v => v.toNat
  | .id v => v.toNat
  | .plen v => v.toNat
  | .lat v => v.toNat
  | .lon v => v.toNat
  | .alt v => v.toNat
  | .year v => v.toNat
  | .month v => v.toNat
  | .day v => v.toNat
  | .hour v => v.toNat
  | .minute v => v.toNat
  | .second v => v.toNat

/-- The untyped encoding of an access (R69). -/
def encodeAccess : HostAccess → RawAccess
  | .write (.cmd v) => .write .reg 0x00 v.toNat
  | .write (.reg w) => .write .reg w.number w.value
  | .write (.pay a v) => .write .pay a.val v.toNat
  | .read (.reg r) => .read .reg r.number
  | .read (.pay a) => .read .pay a.val
  | .read (.pb o) => .read .pb o.val

/-- The value as a word of `n` bits, where it fits. -/
def fitWord (n v : Nat) : Except AccessReject (BitVec n) :=
  if v < 2 ^ n then .ok (BitVec.ofNat n v) else .error .tooWide

/-- The write of register number `n` (10_state R11, R13). -/
def decodeRegWrite (n v : Nat) : Except AccessReject HostWrite :=
  match n with
  | 0x00 => (fitWord 8 v).map .cmd
  | 0x01 => .error .readOnly
  | 0x02 => (fitWord 8 v).map (fun x => .reg (.cls x))
  | 0x03 => (fitWord 8 v).map (fun x => .reg (.id x))
  | 0x04 => (fitWord 32 v).map (fun x => .reg (.plen x))
  | 0x05 => (fitWord 64 v).map (fun x => .reg (.lat x))
  | 0x06 => (fitWord 64 v).map (fun x => .reg (.lon x))
  | 0x07 => (fitWord 64 v).map (fun x => .reg (.alt x))
  | 0x08 => (fitWord 16 v).map (fun x => .reg (.year x))
  | 0x09 => (fitWord 8 v).map (fun x => .reg (.month x))
  | 0x0A => (fitWord 8 v).map (fun x => .reg (.day x))
  | 0x0B => (fitWord 8 v).map (fun x => .reg (.hour x))
  | 0x0C => (fitWord 8 v).map (fun x => .reg (.minute x))
  | 0x0D => (fitWord 8 v).map (fun x => .reg (.second x))
  | 0x0E => .error .readOnly
  | 0x0F => .error .readOnly
  | _ => .error .noSuchTarget

/-- The readable register of a number (R100). -/
def decodeRegRead (n : Nat) : Except AccessReject ReadReg :=
  match n with
  | 0x00 => .error .writeOnly
  | 0x01 => .ok .status
  | 0x02 => .ok .cls
  | 0x03 => .ok .id
  | 0x04 => .ok .plen
  | 0x05 => .ok .lat
  | 0x06 => .ok .lon
  | 0x07 => .ok .alt
  | 0x08 => .ok .year
  | 0x09 => .ok .month
  | 0x0A => .ok .day
  | 0x0B => .ok .hour
  | 0x0C => .ok .minute
  | 0x0D => .ok .second
  | 0x0E => .ok .cka
  | 0x0F => .ok .ckb
  | _ => .error .noSuchTarget

/-- The access an untyped encoding stands for, or why it is none (R69, R40, U11). -/
def decodeAccess : RawAccess → Except AccessReject HostAccess
  | .write .reg n v => (decodeRegWrite n v).map .write
  | .write .pay a v =>
    if h : a < 65535 then (fitWord 8 v).map (fun x => .write (.pay ⟨a, h⟩ x)) else .error .noSuchTarget
  | .write .pb o _ => if o < 48 then .error .readOnly else .error .noSuchTarget
  | .read .reg n => (decodeRegRead n).map (fun r => .read (.reg r))
  | .read .pay a => if h : a < 65535 then .ok (.read (.pay ⟨a, h⟩)) else .error .noSuchTarget
  | .read .pb o => if h : o < 48 then .ok (.read (.pb ⟨o, h⟩)) else .error .noSuchTarget

end Sys2Proof
end

