-- ==== Sys2Proof/Machine/State.lean ====
section
/-! DEFINITION. The state of FENC (10_state R10), with the environment the model adds beside it, and its reset value. -/

namespace Sys2Proof.Machine

/-- The sequencer's phase: IDLE and the eleven in-flight phases in wire order (10_state R21). `beginTx` and `endTx`
are the spec's BEGIN and END. -/
inductive Phase where
  | idle
  | beginTx
  | sync1
  | sync2
  | cls
  | idf
  | lenLo
  | lenHi
  | payload
  | ckA
  | ckB
  | endTx
deriving DecidableEq, Repr

/-- F_SRC: where the frame's payload is read from (10_state R19). -/
inductive FrameSource where
  | srcPay
  | srcPb
deriving DecidableEq, Repr

/-- A sink event (41_frame_encoder R110): `Begin(a)`, `Data(b)`, `End(r)`, `Abort`. -/
inductive SinkEvent where
  | beginTx (a : Nat)
  | data (b : Byte)
  | endTx (r : SinkAnswer)
  | abort
deriving DecidableEq, Repr

/-- The bytes of PAY the host has written since the last reset: address and byte pairs, addresses strictly rising.
An address that is not listed holds the draw `Config.payInit` (20_memory R53; log entry 5). -/
abbrev Memory := List Host.Cell

/-- The environment of FENC, the model's own: what its agents still do and what the host has been handed.
None of it is state of FENC (10_state R23). -/
structure Environment where
  /-- The agents' turns still to come, first first (00_scope R8; log entry 1). -/
  turns : List Turn
  /-- The sink answers already fixed, the next first (R111; log entry 4). -/
  answers : List SinkAnswer
  /-- How many answers were taken from the free value `Config.sinkAck` (log entry 4). -/
  draws : Nat
  /-- What the host's last read returned (R100; log entry 9). -/
  hostData : Option HostWord
deriving DecidableEq, Repr

/-- The state: every component of the record of 10_state R10, the sink history TX (R22), and the environment. -/
structure State where
  /-- CLS, 0x02. -/
  cls : Byte
  /-- ID, 0x03. -/
  id : Byte
  /-- PLEN, 0x04. -/
  plen : Word
  /-- LAT, 0x05, a binary64 pattern. -/
  lat : Double
  /-- LON, 0x06. -/
  lon : Double
  /-- ALT, 0x07. -/
  alt : Double
  /-- YEAR, 0x08. -/
  year : Half
  /-- MONTH, 0x09. -/
  month : Byte
  /-- DAY, 0x0A. -/
  day : Byte
  /-- HOUR, 0x0B. -/
  hour : Byte
  /-- MINUTE, 0x0C. -/
  minute : Byte
  /-- SECOND, 0x0D. -/
  second : Byte
  /-- PAY, the payload memory (R18): the bytes written since reset. -/
  pay : Memory
  /-- Which draw of PAY's unspecified contents is in force: the model's own (log entry 5). -/
  payDraw : Nat
  /-- PB, the AidingPayload buffer, 48 bytes (R17). -/
  pb : Vector Byte 48
  /-- The checksum accumulator ckA (R16). -/
  ckA : Byte
  /-- The checksum accumulator ckB (R16). -/
  ckB : Byte
  /-- F_CLS (R19). -/
  fCls : Byte
  /-- F_ID (R19). -/
  fId : Byte
  /-- F_LEN (R19). -/
  fLen : Half
  /-- F_SRC (R19). -/
  fSrc : FrameSource
  /-- phase (R20, R21). -/
  phase : Phase
  /-- idx (R20). -/
  idx : Half
  /-- DONE (R15). -/
  done : Bool
  /-- TXFAIL (R15). -/
  txfail : Bool
  /-- ERR, a 3-bit code (R15, R160). -/
  err : BitVec 3
  /-- TX, the sink history, oldest event first (R22). -/
  tx : List SinkEvent
  /-- The environment (the model's own). -/
  env : Environment
deriving DecidableEq, Repr

/-- Why a step stops. FENC's errors are codes in ERR, not faults (60_exceptions R164). -/
inductive Fault where
  /-- Raised by the sequencer in phase PAYLOAD when the payload source has no byte at `idx` (41_frame_encoder R113
  defines none there). No run reaches such a state (R113: "No bounds fault exists"). Safe. Log entry 8. -/
  | noPayloadByte
deriving DecidableEq, Repr

/-- Why a step has no meaning. -/
inductive Refusal where
  /-- Raised by `exec` alone, for a command that has no meaning yet. No command is left so. Safe. -/
  | notModelled (mnemonic : String)
deriving DecidableEq, Repr

/-- The outcome of a step of FENC. -/
abbrev Result := Host.Outcome State Fault Refusal

/-- The environment at the start of a run: nothing is scheduled, nothing was read (log entries 1, 4, 9). -/
def Environment.start : Environment where
  turns := []
  answers := []
  draws := 0
  hostData := none

/-- The machine right after reset at the start of a run: the values of 10_state R24, TX empty. -/
def State.reset : State where
  cls := 0#8
  id := 0#8
  plen := 0#32
  lat := 0#64
  lon := 0#64
  alt := 0#64
  year := 0#16
  month := 0#8
  day := 0#8
  hour := 0#8
  minute := 0#8
  second := 0#8
  pay := []
  payDraw := 0
  pb := Vector.replicate 48 0#8
  ckA := 0#8
  ckB := 0#8
  fCls := 0#8
  fId := 0#8
  fLen := 0#16
  fSrc := .srcPay
  phase := .idle
  idx := 0#16
  done := false
  txfail := false
  err := 0#3
  tx := []
  env := Environment.start

end Sys2Proof.Machine
end

