-- ==== Sys2Proof/Machine/Ops.lean ====
section
/-! DEFINITION. The shared operations: byte order, the payload memory, the byte-sink, the checksum unit, the frame,
raising an error, the write gate, the start of a frame, and reset. -/

namespace Sys2Proof.Machine

/-! ## Byte order (20_memory R42, 30_encoding R65) -/

/-- `LE16(v)`: low byte, then high byte (R65). -/
def le16 (v : Half) : List Byte := [v.extractLsb' 0 8, v.extractLsb' 8 8]

/-- `LE32(u)`: four bytes, least significant first (R65). -/
def le32 (u : Word) : List Byte :=
  [u.extractLsb' 0 8, u.extractLsb' 8 8, u.extractLsb' 16 8, u.extractLsb' 24 8]

/-- `U32(s) = s mod 2^32`: the two's-complement image of a signed value (R65). -/
def u32 (s : Int) : Word := BitVec.ofInt 32 s

/-! ## The payload memory PAY (10_state R18, 20_memory R53) -/

/-- Every address of the list is above `lo`, and they rise strictly. -/
def Memory.risesAbove (lo : Nat) : Memory → Bool
  | [] => true
  | c :: m => decide (lo < c.1) && Memory.risesAbove c.1 m

/-- The canonical form: addresses strictly rising, each an address of PAY (R40: 0 to 65534). -/
def Memory.wf : Memory → Bool
  | [] => true
  | c :: m => Memory.risesAbove c.1 m && (c :: m).all (fun x => decide (x.1 < Config.payCap))

/-- The byte written at `a` since reset, if any. -/
def Memory.lookup (a : Nat) : Memory → Option Byte
  | [] => none
  | c :: m => if c.1 = a then some c.2 else Memory.lookup a m

/-- The memory with byte `v` at `a`, kept in canonical form. -/
def Memory.store (a : Nat) (v : Byte) : Memory → Memory
  | [] => [(a, v)]
  | c :: m =>
    if a < c.1 then (a, v) :: c :: m
    else if c.1 = a then (a, v) :: m
    else c :: Memory.store a v m

/-- What byte `a` of PAY reads as: the byte last written, else the draw of the last reset (20_memory R48, R53). -/
def State.payByte (s : State) (a : Nat) : Byte :=
  match Memory.lookup a s.pay with
  | some v => v
  | none => Config.payInit s.payDraw a

/-- `WritePay(a, v)`: `PAY[a] <- v`, nothing else (R103). -/
def State.writePay (s : State) (a : Fin 65535) (v : Byte) : State :=
  { s with pay := Memory.store a.val v s.pay }

/-- What byte `i` of the payload source reads as, where the source has a byte `i`: `PAY[i]` or `PB[i]`
(`PSrc`, 41_frame_encoder R113). -/
def State.psrc (s : State) (i : Nat) : Option Byte :=
  match s.fSrc with
  | .srcPay => if i < Config.payCap then some (s.payByte i) else none
  | .srcPb => s.pb[i]?

/-! ## The byte-sink (41_frame_encoder R110, R111) -/

/-- `SinkEmit(ev)`: append an event to TX (R110). -/
def State.emit (s : State) (ev : SinkEvent) : State := { s with tx := s.tx ++ [ev] }

/-- `SinkAck()`: the sink's answer, the next one the environment has fixed, else a free value (R111; log entry 4). -/
def State.sinkAck (s : State) : SinkAnswer :=
  match s.env.answers with
  | r :: _ => r
  | [] => Config.sinkAck s.env.draws

/-- The answer has been taken: the next transaction's is another draw (R111). -/
def State.takeAck (s : State) : State :=
  match s.env.answers with
  | _ :: rest => { s with env := { s.env with answers := rest } }
  | [] => { s with env := { s.env with draws := s.env.draws + 1 } }

/-- A transaction is open on the sink: `phase` is one of SYNC1 to END (10_state R25 item 7). -/
def Phase.txOpen : Phase → Bool
  | .idle => false
  | .beginTx => false
  | .sync1 => true
  | .sync2 => true
  | .cls => true
  | .idf => true
  | .lenLo => true
  | .lenHi => true
  | .payload => true
  | .ckA => true
  | .ckB => true
  | .endTx => true

/-! ## The checksum unit (40_checksum) -/

/-- `CkClr()` (R81). -/
def State.ckClr (s : State) : State := { s with ckA := 0#8, ckB := 0#8 }

/-- One accumulation on a pair: the second component adds the NEW first one (R82). -/
def ckPair (ab : Byte × Byte) (b : Byte) : Byte × Byte := (ab.1 + b, ab.2 + (ab.1 + b))

/-- `CkUpd(b)` (R82). -/
def State.ckUpd (s : State) (b : Byte) : State :=
  { s with ckA := (ckPair (s.ckA, s.ckB) b).1, ckB := (ckPair (s.ckA, s.ckB) b).2 }

/-- `Cksum(s)`: the checksum of a byte list, first ckA then ckB (R83). -/
def cksum (l : List Byte) : Byte × Byte := l.foldl ckPair (0#8, 0#8)

/-! ## The frame (30_encoding R60, R61) -/

/-- The header bytes the checksum covers: class, id, length low, length high (R61, R84). -/
def frameHeader (cls id : Byte) (n : Half) : List Byte := [cls, id] ++ le16 n

/-- The bytes of the frame with the length field `n` (R61). -/
def frameBytes (cls id : Byte) (n : Half) (p : List Byte) : List Byte :=
  [Config.sync1, Config.sync2] ++ frameHeader cls id n ++ p ++
    [(cksum (frameHeader cls id n ++ p)).1, (cksum (frameHeader cls id n ++ p)).2]

/-- `Frame(cls, id, p)`, undefined for a payload longer than the length field can say (R61). -/
def frame (cls id : Byte) (p : List Byte) : Option (List Byte) :=
  if p.length ≤ Config.lenMax then some (frameBytes cls id (BitVec.ofNat 16 p.length) p) else none

/-- A data byte handed to the sink and accumulated (41_frame_encoder R112, the phases CLASS to PAYLOAD). -/
def State.emitSummed (s : State) (b : Byte) : State := (s.emit (.data b)).ckUpd b

/-! ## Errors (60_exceptions) -/

/-- The four error causes (R160). -/
inductive ErrorCause where
  | lenRange
  | aidRange
  | overlap
  | illegalCmd
deriving DecidableEq, Repr

/-- The code of a cause (R160). -/
def ErrorCause.code : ErrorCause → BitVec 3
  | .lenRange => 1#3
  | .aidRange => 2#3
  | .overlap => 3#3
  | .illegalCmd => 4#3

/-- `raise E()`: record the code; nothing is saved, nothing else is written, control goes nowhere (R164).
The return from an error is `State.resetStep` alone (R168). -/
def State.raise (s : State) (e : ErrorCause) : State := { s with err := e.code }

/-- The write gate every host write passes first (41_frame_encoder R101): frozen, the write is ignored; busy, it is
refused with `Overlap`; else it is performed. -/
def State.gate (s : State) (perform : State → State) : State :=
  if s.err ≠ 0#3 then s
  else if s.phase ≠ .idle then s.raise .overlap
  else perform s

/-- `StartFrame()`: the common start of a frame; no sink event (41_frame_encoder R107). -/
def State.startFrame (s : State) : State :=
  { s.ckClr with done := false, txfail := false, idx := 0#16, phase := .beginTx }

/-- The frame registers are loaded (10_state R19). -/
def State.latch (s : State) (c i : Byte) (n : Half) (src : FrameSource) : State :=
  { s with fCls := c, fId := i, fLen := n, fSrc := src }

/-- `Reset()`: every component to its reset value, PAY a fresh draw, TX kept and closed by `Abort` if a transaction
is open (70_reset_and_hazards R180, R181). The environment goes on. -/
def State.resetStep (s : State) : State :=
  { State.reset with
    payDraw := s.payDraw + 1
    tx := if s.phase.txOpen then s.tx ++ [.abort] else s.tx
    env := s.env }

/-! ## The environment's bookkeeping (the model's own) -/

/-- The state with the turns `l` still to come. -/
def State.withTurns (s : State) (l : List Turn) : State := { s with env := { s.env with turns := l } }

/-- The state after the host was handed the value `v` (R100: a read changes nothing of FENC; log entry 9). -/
def State.handHost (s : State) (v : HostWord) : State := { s with env := { s.env with hostData := some v } }

end Sys2Proof.Machine
end

