-- ==== Sys2Proof/Machine/Flags.lean ====
section
/-! DEFINITION. The flags BUSY, DONE, TXFAIL, ERR and the register STATUS composed from them (10_state R14, R15). -/

namespace Sys2Proof.Machine

/-- BUSY: a frame is in flight (R14, R15). -/
def State.busy (s : State) : Bool := s.phase != .idle

/-- The error state: FENC is frozen (60_exceptions R166). -/
def State.frozen (s : State) : Bool := s.err != 0#3

/-- STATUS, composed at the moment of the read: bits 7 and 3 zero, bits 6:4 ERR, bit 2 TXFAIL, bit 1 DONE, bit 0 BUSY
(R14). -/
def State.status (s : State) : Byte :=
  0#1 ++ s.err ++ 0#1 ++ BitVec.ofBool s.txfail ++ BitVec.ofBool s.done ++ BitVec.ofBool s.busy

/-- The sink's report recorded unchanged: `ACK_OK` sets DONE, `ACK_FAIL` sets TXFAIL (R15, 41_frame_encoder R112). -/
def State.setResult (s : State) (r : SinkAnswer) : State :=
  match r with
  | .ackOk => { s with done := true }
  | .ackFail => { s with txfail := true }

end Sys2Proof.Machine
end

