-- ==== Sys2Proof/Machine/Operands.lean ====
section
/-! DEFINITION. The operands: the operand registers, the binary64 format, and the scaling of a coordinate. -/

namespace Sys2Proof.Machine

/-! ## Operand registers (10_state R11, 41_frame_encoder R102) -/

/-- `WriteReg(r, v)`: `x[r] <- v`; nothing else changes and no value is checked (R102). -/
def State.writeReg (s : State) : OperandWrite → State
  | .cls v => { s with cls := v }
  | .id v => { s with id := v }
  | .plen v => { s with plen := v }
  | .lat v => { s with lat := v }
  | .lon v => { s with lon := v }
  | .alt v => { s with alt := v }
  | .year v => { s with year := v }
  | .month v => { s with month := v }
  | .day v => { s with day := v }
  | .hour v => { s with hour := v }
  | .minute v => { s with minute := v }
  | .second v => { s with second := v }

/-! ## The binary64 format (30_encoding R68)

A finite magnitude is a pair of natural numbers `(sig, ex)` standing for `sig * 2 ^ (ex - 1074)`: every finite
binary64 value, and every product of one with a natural number, is a multiple of the smallest subnormal. -/

/-- The classes of a 64-bit pattern (R68). -/
inductive Binary64 where
  | nan
  | infinite (neg : Bool)
  | finite (neg : Bool) (sig ex : Nat)
deriving DecidableEq, Repr

/-- The biased exponent field, bits 62 to 52 (R68). -/
def expField (w : Double) : Nat := (w.extractLsb' 52 11).toNat

/-- The fraction field, bits 51 to 0 (R68). -/
def fracField (w : Double) : Nat := (w.extractLsb' 0 52).toNat

/-- The class and value of a pattern (R68). -/
def Binary64.ofPattern (w : Double) : Binary64 :=
  if expField w = 2047 then
    if fracField w = 0 then .infinite w.msb else .nan
  else if expField w = 0 then .finite w.msb (fracField w) 0
  else .finite w.msb (2 ^ 52 + fracField w) (expField w - 1)

/-! ## Scaling (42_aiding_packer R132, R133) -/

/-- `m / 2 ^ d` rounded to a natural number, ties to even. -/
def roundHalfEven (m d : Nat) : Nat :=
  if 2 * (m % 2 ^ d) < 2 ^ d then m / 2 ^ d
  else if 2 ^ d < 2 * (m % 2 ^ d) then m / 2 ^ d + 1
  else m / 2 ^ d + (m / 2 ^ d) % 2

/-- How many low bits of `m` do not fit a 53-bit significand. -/
def excessBits (m : Nat) : Nat := (Nat.log2 m + 1) - 53

/-- `RN64` of the magnitude `m * 2 ^ (e - 1074)`: the nearest binary64 magnitude, ties to the even significand; none
where it is infinite, that is where the rounded magnitude is at least 2 ^ 1024 (R132). No smaller rounding unit is
needed: the argument is a multiple of the smallest subnormal (log entry 11). -/
def rn64 (m e : Nat) : Option (Nat × Nat) :=
  let q := roundHalfEven m (excessBits m)
  let ex := e + excessBits m
  if q ≠ 0 ∧ 2098 ≤ Nat.log2 q + ex then none else some (q, ex)

/-- `floor(p + 1/2)` for the magnitude `p = m * 2 ^ (e - 1074)` (R133). Below the integers the half is added one bit
lower down: `floor(m / 2 ^ d + 1/2) = floor((floor(m / 2 ^ (d-1)) + 1) / 2)`. -/
def roundHalfUp (m e : Nat) : Nat :=
  if 1074 ≤ e then m * 2 ^ (e - 1074) else ((m >>> (1073 - e)) + 1) >>> 1

/-- `RoundHalfAway` of a signed magnitude (R133). -/
def roundHalfAway (neg : Bool) (m e : Nat) : Int :=
  if neg then -(roundHalfUp m e : Int) else (roundHalfUp m e : Int)

/-- The value fits a signed 32-bit integer (R132). -/
def fitsI32 (n : Int) : Bool := decide (-2147483648 ≤ n) && decide (n ≤ 2147483647)

/-- `Scale(w, k)`: the binary64 product with `k`, rounded half away from zero to a signed 32-bit integer; `none` is
`RangeError` (R132). -/
def scale (w : Double) (k : Nat) : Option Int :=
  match Binary64.ofPattern w with
  | .nan => none
  | .infinite _ => none
  | .finite neg sig ex =>
    match rn64 (sig * k) ex with
    | none => none
    | some p => if fitsI32 (roundHalfAway neg p.1 p.2) then some (roundHalfAway neg p.1 p.2) else none

end Sys2Proof.Machine
end

