-- ==== Sys2Proof/Machine/Aidsend.lean ====
section
/-! DEFINITION. The aiding-payload packer and the command AIDSEND (42_aiding_packer R134 to R139). -/

namespace Sys2Proof.Machine

/-- The AidingPayload as a buffer value, 48 bytes (10_state R17). -/
abbrev AidBuffer := Vector Byte 48

/-- `Put8(B, o, v)` (R134); a store outside the buffer does not type-check (R137). -/
def put8 (B : AidBuffer) (o : Nat) (v : Byte) (h : o < 48 := by decide) : AidBuffer := B.set o v h

/-- `Put16LE(B, o, v)` (R135). -/
def put16le (B : AidBuffer) (o : Nat) (v : Half) (h : o + 1 < 48 := by decide) : AidBuffer :=
  put8 (put8 B o (v.extractLsb' 0 8) (by omega)) (o + 1) (v.extractLsb' 8 8) h

/-- `Put32LE(B, o, s)` for a signed 32-bit value (R136). -/
def put32le (B : AidBuffer) (o : Nat) (s : Int) (h : o + 3 < 48 := by decide) : AidBuffer :=
  put8 (put8 (put8 (put8 B o ((u32 s).extractLsb' 0 8) (by omega))
    (o + 1) ((u32 s).extractLsb' 8 8) (by omega))
    (o + 2) ((u32 s).extractLsb' 16 8) (by omega))
    (o + 3) ((u32 s).extractLsb' 24 8) h

/-- The operands of `Pack` (R138). -/
structure AidOperands where
  mask : Half
  la : Int
  lo : Int
  al : Int
  year : Half
  month : Byte
  day : Byte
  hour : Byte
  minute : Byte
  second : Byte
deriving DecidableEq, Repr

/-- `Pack(...)`: from 48 zero bytes, the fields stored at their offsets (R138, 30_encoding R63). -/
def pack (x : AidOperands) : AidBuffer :=
  let B := Vector.replicate 48 0#8
  let B := put16le B 0 x.mask
  let B := put32le B 16 x.la
  let B := put32le B 20 x.lo
  let B := put32le B 24 x.al
  let B := put16le B 28 x.year
  let B := put8 B 30 x.month
  let B := put8 B 31 x.day
  let B := put8 B 32 x.hour
  let B := put8 B 33 x.minute
  put8 B 34 x.second

/-- The operands of an aiding payload, where all three coordinates scale (R139). -/
def State.aidOperands (s : State) : Option AidOperands :=
  match scale s.lat Config.latLonScale, scale s.lon Config.latLonScale, scale s.alt Config.altScale with
  | some la, some lo, some al =>
    some ⟨Config.aidMask, la, lo, al, s.year, s.month, s.day, s.hour, s.minute, s.second⟩
  | _, _, _ => none

/-- The frame of an accepted AIDSEND with the payload `B`: PB rewritten whole, the frame registers loaded from the
parameters, the frame started (R139, 10_state R17, R19). -/
def State.startAiding (s : State) (B : AidBuffer) : State :=
  ({ s with pb := B }.latch Config.aidClass Config.aidId (BitVec.ofNat 16 Config.aidLen) .srcPb).startFrame

/-- `AidSend()`: the performed command (R139). The range check covers all three coordinates before anything is
written. -/
def State.aidsendCommand (s : State) : State :=
  match s.aidOperands with
  | none => s.raise .aidRange
  | some x => s.startAiding (pack x)

/-- AIDSEND: the host writes 0x02 to CMD; the write gate comes first (R101, R104, R139; log entry 3). -/
def execAidsend (s : State) : Result := .next (s.gate State.aidsendCommand)

end Sys2Proof.Machine
end

