-- ==== Sys2Proof/Machine/Encode.lean ====
section
/-! DEFINITION. The command ENCODE (41_frame_encoder R105). -/

namespace Sys2Proof.Machine

/-- `Encode()`: the performed command (R105). The length check comes before any write; the length is never reduced
modulo 65536. -/
def State.encodeCommand (s : State) : State :=
  if Config.lenMax < s.plen.toNat then s.raise .lenRange
  else (s.latch s.cls s.id (s.plen.extractLsb' 0 16) .srcPay).startFrame

/-- ENCODE: the host writes 0x01 to CMD; the write gate comes first (R101, R104, R105; log entry 3). -/
def execEncode (s : State) : Result := .next (s.gate State.encodeCommand)

end Sys2Proof.Machine
end

