-- ==== Sys2Proof/Machine/Dispatch.lean ====
section
/-! DEFINITION. One arm per command: its meaning. -/

namespace Sys2Proof.Machine

-- The dispatch of a performed write to CMD (41_frame_encoder R104) for the legal codes.
def exec (i : Instr) (s : State) : Host.Outcome State Fault Refusal :=
  match i with
  | .encode => Sys2Proof.Machine.execEncode s
  | .aidsend => Sys2Proof.Machine.execAidsend s

end Sys2Proof.Machine
end

