-- ==== Sys2Proof/Machine/HostAccess.lean ====
section
/-! DEFINITION. The host's accesses: `HostRead` and `HostWrite` (41_frame_encoder R100 to R104). -/

namespace Sys2Proof.Machine

/-- A register's value as a host read returns it (R100). -/
def State.readReg (s : State) : ReadReg → HostWord
  | .status => .byte s.status
  | .cls => .byte s.cls
  | .id => .byte s.id
  | .plen => .word s.plen
  | .lat => .double s.lat
  | .lon => .double s.lon
  | .alt => .double s.alt
  | .year => .half s.year
  | .month => .byte s.month
  | .day => .byte s.day
  | .hour => .byte s.hour
  | .minute => .byte s.minute
  | .second => .byte s.second
  | .cka => .byte s.ckA
  | .ckb => .byte s.ckB

/-- `HostRead(space, addr)`: the value at the moment of the step (R100). -/
def hostRead (r : HostRead) (s : State) : HostWord :=
  match r with
  | .reg x => s.readReg x
  | .pay a => .byte (s.payByte a.val)
  | .pb o => .byte s.pb[o]

/-- A write of `v` to CMD: the command its code stands for, or `IllegalCmd`, behind the write gate (R101, R104). The
gate of a legal command stands in its meaning (log entry 3). -/
def commandWrite (v : Byte) (s : State) : Result :=
  match decode v with
  | .command i => exec i s
  | .illegal _ => .next (s.gate (fun t => t.raise .illegalCmd))

/-- `HostWrite(space, addr, v)` (R101). -/
def hostWrite (w : HostWrite) (s : State) : Result :=
  match w with
  | .cmd v => commandWrite v s
  | .reg x => .next (s.gate (fun t => t.writeReg x))
  | .pay a v => .next (s.gate (fun t => t.writePay a v))

/-- One host step (00_scope R8). A read is always performed and changes nothing of FENC (R100, 20_memory R45). -/
def hostStep (a : HostAccess) (s : State) : Result :=
  match a with
  | .write w => hostWrite w s
  | .read r => .next (s.handHost (hostRead r s))

end Sys2Proof.Machine
end

