-- ==== Sys2Proof/Machine/Sequencer.lean ====
section
/-! DEFINITION. The sequencer: one sink event per step (41_frame_encoder R112, R113). -/

namespace Sys2Proof.Machine

/-- The phase PAYLOAD: emit and accumulate payload byte `idx`, and go on to the next one or to CK_A (R112). -/
def State.payloadStep (s : State) : Result :=
  match s.psrc s.idx.toNat with
  | none => .fault .noPayloadByte
  | some b =>
    if s.idx + 1#16 = s.fLen then .next { s.emitSummed b with idx := 0#16, phase := .ckA }
    else .next { s.emitSummed b with idx := s.idx + 1#16 }

/-- The phase END: take the sink's report, record it in TX and in the result flags, go idle (R112). -/
def State.endStep (s : State) : State :=
  { ((s.takeAck).emit (.endTx s.sinkAck)).setResult s.sinkAck with phase := .idle }

/-- `SeqStep()` (R112). In phase IDLE the sequencer has no step: its turn passes (log entry 2). -/
def seqStep (s : State) : Result :=
  match s.phase with
  | .idle => .next s
  | .beginTx => .next { s.emit (.beginTx Config.sinkAddr) with phase := .sync1 }
  | .sync1 => .next { s.emit (.data Config.sync1) with phase := .sync2 }
  | .sync2 => .next { s.emit (.data Config.sync2) with phase := .cls }
  | .cls => .next { s.emitSummed s.fCls with phase := .idf }
  | .idf => .next { s.emitSummed s.fId with phase := .lenLo }
  | .lenLo => .next { s.emitSummed (s.fLen.extractLsb' 0 8) with phase := .lenHi }
  | .lenHi =>
    .next { s.emitSummed (s.fLen.extractLsb' 8 8) with
      idx := 0#16, phase := if s.fLen = 0#16 then .ckA else .payload }
  | .payload => s.payloadStep
  | .ckA => .next { s.emit (.data s.ckA) with phase := .ckB }
  | .ckB => .next { s.emit (.data s.ckB) with phase := .endTx }
  | .endTx => .next s.endStep

end Sys2Proof.Machine
end

