-- ==== Sys2Proof/Machine/Agents.lean ====
section
/-! DEFINITION. Whose turn it is, and one step of that agent (00_scope R8; log entries 1, 2, 7, 12). -/

namespace Sys2Proof.Machine

/-- One step of the agent whose turn is first. With no turn left the sequencer goes on while a frame is in flight, and
FENC rests otherwise (41_frame_encoder R118, R119; log entry 2). A `wait` gives its turn to the sequencer until FENC is
idle, and ends with the poll of STATUS that sees BUSY = 0 (30_encoding R69; log entry 12). -/
def agentStep (s : State) : Result :=
  match s.env.turns with
  | [] => seqStep s
  | .host a :: rest => hostStep a (s.withTurns rest)
  | .sequencer :: rest => seqStep (s.withTurns rest)
  | .reset :: rest => .next (s.withTurns rest).resetStep
  | .wait :: rest =>
    if s.busy then seqStep s else hostStep (.read (.reg .status)) (s.withTurns rest)

/-- The state in which the host's next steps are writes of the bytes `l` to CMD, one after the other. -/
def State.withCommands (s : State) (l : List Byte) : State :=
  s.withTurns (l.map (fun v => Turn.host (.write (.cmd v))) ++ s.env.turns)

end Sys2Proof.Machine
end

