-- ==== Sys2Proof/Machine/Step.lean ====
section
/-! DEFINITION. One step of the machine, and a command placed where the next step takes it from (log entries 1, 7). -/

namespace Sys2Proof.Machine

/-- One step: that of the agent whose turn it is (00_scope R8). -/
def step (s : State) : Host.Outcome State Fault Refusal := agentStep s

/-- The host's next step is the write of the command word `w` to CMD (30_encoding R66; log entry 7). -/
def State.withFetchWord (s : State) (nbits w : Nat) : State := s.withCommands (wordBytes nbits w)

end Sys2Proof.Machine
end

