-- ==== Sys2Proof/Machine/Script.lean ====
section
/-! DEFINITION. The script notation and its pseudo-instructions, expanded to turns (30_encoding R69, R70). -/

namespace Sys2Proof.Machine

/-- A line of a script (R69, R70). -/
inductive ScriptLine where
  /-- `WR CMD, v`. -/
  | wrCmd (v : Byte)
  /-- `WR <reg>, v` of an operand register. -/
  | wr (w : OperandWrite)
  /-- `RD <reg>`. -/
  | rd (r : ReadReg)
  /-- `WRM a, v`. -/
  | wrm (a : Fin 65535) (v : Byte)
  /-- `RDM PAY, a`. -/
  | rdmPay (a : Fin 65535)
  /-- `RDM PB, o`. -/
  | rdmPb (o : Fin 48)
  /-- `WAIT`. -/
  | wait
  /-- `RESET`. -/
  | reset
  /-- The pseudo-instruction `ENCODE`. -/
  | encode
  /-- The pseudo-instruction `AIDSEND`. -/
  | aidsend
  /-- `LOAD <b0> … <bk>`. -/
  | load (l : List Byte)
  /-- `SEND cls, id, [<b0> … <bk>]`. -/
  | send (cls id : Byte) (l : List Byte)
  /-- `AID lat, lon, alt, y, mo, d, h, mi, s`. -/
  | aid (lat lon alt : Double) (y : Half) (mo d h mi s : Byte)
deriving DecidableEq, Repr

/-- A host write as a turn. -/
def writeTurn (w : HostWrite) : Turn := .host (.write w)

/-- A host read as a turn. -/
def readTurn (r : HostRead) : Turn := .host (.read r)

/-- `WRM a, b0; WRM a+1, b1; …`, where every address is one of PAY (R40). -/
def loadFrom (a : Nat) : List Byte → Option (List Turn)
  | [] => some []
  | b :: l =>
    if h : a < 65535 then (loadFrom (a + 1) l).map (fun t => writeTurn (.pay ⟨a, h⟩ b) :: t) else none

/-- The operand writes of `AID` (R70). -/
def aidWrites (lat lon alt : Double) (y : Half) (mo d h mi s : Byte) : List Turn :=
  [.lat lat, .lon lon, .alt alt, .year y, .month mo, .day d, .hour h, .minute mi, .second s].map
    (fun w => writeTurn (.reg w))

/-- The turns a line stands for; none where a line loads past the end of PAY and so stands for no host access
(R69, R70, U11; log entry 12). -/
def ScriptLine.expand : ScriptLine → Option (List Turn)
  | .wrCmd v => some [writeTurn (.cmd v)]
  | .wr w => some [writeTurn (.reg w)]
  | .rd r => some [readTurn (.reg r)]
  | .wrm a v => some [writeTurn (.pay a v)]
  | .rdmPay a => some [readTurn (.pay a)]
  | .rdmPb o => some [readTurn (.pb o)]
  | .wait => some [.wait]
  | .reset => some [.reset]
  | .encode => some [writeTurn (.cmd 0x01#8)]
  | .aidsend => some [writeTurn (.cmd 0x02#8)]
  | .load l => loadFrom 0 l
  | .send c i l =>
    (loadFrom 0 l).map (fun t => t ++
      [writeTurn (.reg (.cls c)), writeTurn (.reg (.id i)), writeTurn (.reg (.plen (BitVec.ofNat 32 l.length))),
       writeTurn (.cmd 0x01#8), .wait])
  | .aid lat lon alt y mo d h mi s =>
    some (aidWrites lat lon alt y mo d h mi s ++ [writeTurn (.cmd 0x02#8), .wait])

/-- The turns of a script, its lines in order (R69). -/
def expandScript : List ScriptLine → Option (List Turn)
  | [] => some []
  | x :: l =>
    match x.expand, expandScript l with
    | some t, some u => some (t ++ u)
    | _, _ => none

end Sys2Proof.Machine
end

