-- ==== Sys2Proof/Safety.lean ====
section
/-! DEFINITION. The terms claims are stated in: runs, the frame in flight, the sink history's shape, the invariant. -/

namespace Sys2Proof

/-! ## Turns and operand writes -/

/-- A turn that is neither a reset nor a WAIT: a host step or a sequencer step (R115, "if no reset occurs"). -/
def Turn.plain : Turn → Bool
  | .host _ => true
  | .sequencer => true
  | .reset => false
  | .wait => false

/-- A turn of the sequencer. -/
def Turn.isSequencer : Turn → Bool
  | .host _ => false
  | .sequencer => true
  | .reset => false
  | .wait => false

/-- A turn in which the host writes. -/
def Turn.isWrite : Turn → Bool
  | .host (.write _) => true
  | .host (.read _) => false
  | .sequencer => false
  | .reset => false
  | .wait => false

/-- The register an operand write names, as a read target. -/
def OperandWrite.target : OperandWrite → ReadReg
  | .cls _ => .cls
  | .id _ => .id
  | .plen _ => .plen
  | .lat _ => .lat
  | .lon _ => .lon
  | .alt _ => .alt
  | .year _ => .year
  | .month _ => .month
  | .day _ => .day
  | .hour _ => .hour
  | .minute _ => .minute
  | .second _ => .second

/-- The value an operand write carries, as a read returns it. -/
def OperandWrite.word : OperandWrite → HostWord
  | .cls v => .byte v
  | .id v => .byte v
  | .plen v => .word v
  | .lat v => .double v
  | .lon v => .double v
  | .alt v => .double v
  | .year v => .half v
  | .month v => .byte v
  | .day v => .byte v
  | .hour v => .byte v
  | .minute v => .byte v
  | .second v => .byte v

end Sys2Proof

namespace Sys2Proof.Machine

/-! ## Runs -/

/-- `k` steps, stopping at the first fault or refusal. -/
def runSteps : Nat → State → Result
  | 0, s => .next s
  | k + 1, s =>
    match step s with
    | .next t => runSteps k t
    | .fault f => .fault f
    | .refused r => .refused r

/-- The number of sequencer turns in a schedule. -/
def sequencerTurns (l : List Turn) : Nat := l.countP Turn.isSequencer

/-! ## The registers a command may not change -/

/-- The twelve operand registers (10_state R11). -/
structure OperandRegs where
  cls : Byte
  id : Byte
  plen : Word
  lat : Double
  lon : Double
  alt : Double
  year : Half
  month : Byte
  day : Byte
  hour : Byte
  minute : Byte
  second : Byte
deriving DecidableEq, Repr

/-- The operand registers of a state. -/
def State.operandRegs (s : State) : OperandRegs :=
  ⟨s.cls, s.id, s.plen, s.lat, s.lon, s.alt, s.year, s.month, s.day, s.hour, s.minute, s.second⟩

/-- The frame registers (10_state R19). -/
structure FrameRegs where
  fCls : Byte
  fId : Byte
  fLen : Half
  fSrc : FrameSource
deriving DecidableEq, Repr

/-- The frame registers of a state. -/
def State.frameRegs (s : State) : FrameRegs := ⟨s.fCls, s.fId, s.fLen, s.fSrc⟩

/-! ## The frame in flight -/

/-- The payload bytes of the latched frame, in order (R113, R115). -/
def State.payload (s : State) : List Byte := (List.range s.fLen.toNat).filterMap s.psrc

/-- The header bytes of the latched frame. -/
def State.header (s : State) : List Byte := frameHeader s.fCls s.fId s.fLen

/-- The latched frame (R61, R115). -/
def State.frameNow (s : State) : List Byte := frameBytes s.fCls s.fId s.fLen s.payload

/-- The checksummed bytes emitted so far (40_checksum R84). -/
def State.summed (s : State) : List Byte :=
  match s.phase with
  | .idle => []
  | .beginTx => []
  | .sync1 => []
  | .sync2 => []
  | .cls => []
  | .idf => s.header.take 1
  | .lenLo => s.header.take 2
  | .lenHi => s.header.take 3
  | .payload => s.header ++ s.payload.take s.idx.toNat
  | .ckA => s.header ++ s.payload
  | .ckB => s.header ++ s.payload
  | .endTx => s.header ++ s.payload

/-- How many bytes of the frame have been emitted. -/
def State.emitted (s : State) : Nat :=
  match s.phase with
  | .idle => 0
  | .beginTx => 0
  | .sync1 => 0
  | .sync2 => 1
  | .cls => 2
  | .idf => 3
  | .lenLo => 4
  | .lenHi => 5
  | .payload => 6 + s.idx.toNat
  | .ckA => 6 + s.fLen.toNat
  | .ckB => 7 + s.fLen.toNat
  | .endTx => 8 + s.fLen.toNat

/-- How many sequencer steps the frame in flight still takes (R114). -/
def State.stepsLeft (s : State) : Nat :=
  match s.phase with
  | .idle => 0
  | .beginTx => s.fLen.toNat + 10
  | .sync1 => s.fLen.toNat + 9
  | .sync2 => s.fLen.toNat + 8
  | .cls => s.fLen.toNat + 7
  | .idf => s.fLen.toNat + 6
  | .lenLo => s.fLen.toNat + 5
  | .lenHi => s.fLen.toNat + 4
  | .payload => (s.fLen.toNat - s.idx.toNat) + 3
  | .ckA => 3
  | .ckB => 2
  | .endTx => 1

/-- The events of a whole transaction that carries the bytes `f` and is answered `r` (R110, R115). -/
def transaction (f : List Byte) (r : SinkAnswer) : List SinkEvent :=
  .beginTx Config.sinkAddr :: (f.map .data ++ [.endTx r])

/-- The events of the open transaction: its `Begin` and the bytes emitted so far. -/
def State.openEvents (s : State) : List SinkEvent :=
  if s.phase.txOpen then .beginTx Config.sinkAddr :: (s.frameNow.take s.emitted).map .data else []

/-! ## The shape of TX (10_state R25 item 7) -/

/-- What reading TX from its start has met so far. -/
inductive TxShape where
  /-- Complete transactions only. -/
  | closed
  /-- Complete transactions, then an open one. -/
  | opened
  /-- An event out of place. -/
  | broken
deriving DecidableEq, Repr

/-- One more event: `Begin(SINK_ADDR)` opens, `Data` continues, `End` or `Abort` closes. -/
def TxShape.after (x : TxShape) (ev : SinkEvent) : TxShape :=
  match x, ev with
  | .closed, .beginTx a => if a = Config.sinkAddr then .opened else .broken
  | .opened, .data _ => .opened
  | .opened, .endTx _ => .closed
  | .opened, .abort => .closed
  | _, _ => .broken

/-- The shape of a sink history. -/
def txShape (l : List SinkEvent) : TxShape := l.foldl TxShape.after .closed

/-! ## The invariant (10_state R25) -/

/-- What holds in every state that reset and steps reach (R25, items 1 to 5, 7 and 8 with their strengthenings). -/
structure State.Inv (s : State) : Prop where
  /-- Item 1. -/
  idxBelow : s.phase = .payload → s.idx.toNat < s.fLen.toNat
  /-- Item 2. -/
  idxZero : s.phase ≠ .payload → s.phase ≠ .idle → s.idx = 0#16
  /-- Item 3. -/
  aidRegs : s.fSrc = .srcPb → s.fLen.toNat = 48 ∧ s.fCls = Config.aidClass ∧ s.fId = Config.aidId
  /-- Item 4. -/
  oneResult : ¬(s.done = true ∧ s.txfail = true)
  /-- Item 4. -/
  noResultInFlight : s.phase ≠ .idle → s.done = false ∧ s.txfail = false
  /-- Item 5. -/
  errCode : s.err.toNat ≤ 4
  /-- Only `Overlap` can stand while a frame is in flight (95_test_vectors T8). -/
  errInFlight : s.phase ≠ .idle → s.err = 0#3 ∨ s.err = 3#3
  /-- Item 7: complete transactions, then one open one exactly when `phase` is SYNC1 to END. -/
  txWhole : txShape s.tx = if s.phase.txOpen then .opened else .closed
  /-- The open transaction holds the bytes of the latched frame emitted so far. -/
  txOpenPart : ∃ l, s.tx = l ++ s.openEvents ∧ txShape l = .closed
  /-- Item 8, at every phase: the accumulators are the checksum of the bytes emitted so far. -/
  checksum : s.phase ≠ .idle → (s.ckA, s.ckB) = cksum s.summed
  /-- PAY is in canonical form. -/
  payCanonical : Memory.wf s.pay = true

/-- The bytes of PB that no field takes are zero (30_encoding R64). -/
def State.reservedZero (s : State) : Prop :=
  ∀ o : Fin 48, (2 ≤ o.val ∧ o.val ≤ 15) ∨ 35 ≤ o.val → s.pb[o] = 0#8

/-! ## A performed write -/

/-- FENC is idle and not frozen: a host write is performed (41_frame_encoder R101). -/
def State.ready (s : State) : Prop := s.err = 0#3 ∧ s.phase = .idle

end Sys2Proof.Machine
end

