-- ==== Sys2Proof/Certificates/Slice0/Obligations.lean ====
section
/-! DEFINITION. The statements for the provers. Each docstring names the rule of spec/ it formalises or rests on. -/

open Sys2Proof Sys2Proof.Machine

/-! ## Fetch and encodings -/

/-- A step is the step of the agent whose turn is first, for every turn: a host access is performed as such, a write of
a command word runs the command it decodes to, a sequencer turn is one `SeqStep`, a reset turn one `Reset` (R8, R104;
the list of turns is log entry 1). With no turn left the sequencer steps (log entry 2); a WAIT gives its turn to the
sequencer while a frame is in flight and ends with a read of STATUS (log entry 12). -/
def Obligations.StepRunsDecodedCommand : Prop :=
  ∀ (s : State) (rest : List Turn),
    (∀ a, s.env.turns = .host a :: rest → step s = hostStep a (s.withTurns rest)) ∧
    (∀ (v : Byte) (i : Instr), s.env.turns = .host (.write (.cmd v)) :: rest → decode v = .command i →
      step s = exec i (s.withTurns rest)) ∧
    (s.env.turns = .sequencer :: rest → step s = seqStep (s.withTurns rest)) ∧
    (s.env.turns = .reset :: rest → step s = .next (s.withTurns rest).resetStep) ∧
    (s.env.turns = .wait :: rest →
      step s = if s.phase = .idle then hostStep (.read (.reg .status)) (s.withTurns rest) else seqStep s) ∧
    (s.env.turns = [] → step s = seqStep s)

/-- A command placed by `withFetchWord` is what the next step runs, in the state it was placed in (log entry 7). -/
def Obligations.PlacedCommandRunsNext : Prop :=
  ∀ (s : State) (i : Instr), step (s.withFetchWord 8 (encode i).toNat) = exec i s

/-- The words of the opcode map decode to their commands, every other word is illegal (R66, R67). -/
def Obligations.OpcodeMapDecodes : Prop :=
  decode 0b00000001#8 = .command .encode ∧ decode 0b00000010#8 = .command .aidsend ∧
    ∀ v : Byte, v ≠ 0x01#8 → v ≠ 0x02#8 → decode v = .illegal v

/-- Decode and encode agree on commands, both ways (R66). -/
def Obligations.CommandDecodeEncode : Prop :=
  (∀ i : Instr, i.wellFormed = true → decode (encode i) = .command i ∧ decodeTableWord 8 (encode i).toNat = some i) ∧
    ∀ (v : Byte) (i : Instr), decode v = .command i → encode i = v ∧ legalCommand v = true

/-- Decode and encode agree on host accesses, both ways, with every target and every value (R69, R40). -/
def Obligations.HostAccessDecodeEncode : Prop :=
  (∀ a : HostAccess, decodeAccess (encodeAccess a) = .ok a) ∧
    ∀ (r : RawAccess) (a : HostAccess), decodeAccess r = .ok a → encodeAccess a = r

/-- An untyped access is an access of FENC exactly when its target exists, may be accessed that way, and its value has
the target's width (R40, R44, U11). -/
def Obligations.AccessDecodesIffWellFormed : Prop :=
  ∀ r : RawAccess, r.wellFormed = true ↔ ∃ a, decodeAccess r = .ok a

/-! ## Host reads and STATUS -/

/-- Every host read is performed in every state, answers the value the rule gives, and changes no state of FENC
(R100, R45). -/
def Obligations.HostReadsChangeNothing : Prop :=
  ∀ s : State,
    (∀ r, ∃ t, hostStep (.read r) s = .next t ∧ { t with env := s.env } = s) ∧
    hostRead (.reg .status) s = .byte s.status ∧ hostRead (.reg .cka) s = .byte s.ckA ∧
    hostRead (.reg .ckb) s = .byte s.ckB ∧
    hostRead (.reg .cls) s = .byte s.cls ∧ hostRead (.reg .id) s = .byte s.id ∧
    hostRead (.reg .plen) s = .word s.plen ∧ hostRead (.reg .lat) s = .double s.lat ∧
    hostRead (.reg .lon) s = .double s.lon ∧ hostRead (.reg .alt) s = .double s.alt ∧
    hostRead (.reg .year) s = .half s.year ∧ hostRead (.reg .month) s = .byte s.month ∧
    hostRead (.reg .day) s = .byte s.day ∧ hostRead (.reg .hour) s = .byte s.hour ∧
    hostRead (.reg .minute) s = .byte s.minute ∧ hostRead (.reg .second) s = .byte s.second ∧
    (∀ a : Fin 65535, hostRead (.pay a) s = .byte (s.payByte a.val)) ∧
    ∀ o : Fin 48, hostRead (.pb o) s = .byte s.pb[o]

/-- A host read hands the host the value, and takes nothing else from the environment: the field that holds what the
host was handed is the model's own (log entry 9). -/
def Obligations.ReadHandsTheValue : Prop :=
  ∀ (r : HostRead) (s t : State), hostStep (.read r) s = .next t →
    t.env = { s.env with hostData := some (hostRead r s) } ∧ hostRead r t = hostRead r s

/-- STATUS = BUSY + 2*DONE + 4*TXFAIL + 16*ERR; its reserved bits read 0; reading it clears nothing (R14). -/
def Obligations.StatusComposition : Prop :=
  ∀ s : State,
    s.status.toNat = (if s.phase = .idle then 0 else 1) + 2 * s.done.toNat + 4 * s.txfail.toNat + 16 * s.err.toNat ∧
      s.status.getLsbD 3 = false ∧ s.status.getLsbD 7 = false ∧
      ∃ t, hostStep (.read (.reg .status)) s = .next t ∧ { t with env := s.env } = s

/-- The STATUS values that can never be read (95_test_vectors T8, R25). -/
def Obligations.StatusNeverRead : Prop :=
  ∀ s : State, s.Inv →
    s.status.getLsbD 3 = false ∧ s.status.getLsbD 7 = false ∧
    ¬(s.status.getLsbD 1 = true ∧ s.status.getLsbD 2 = true) ∧
    ¬(s.status.getLsbD 0 = true ∧ (s.status.getLsbD 1 = true ∨ s.status.getLsbD 2 = true)) ∧
    s.status ≠ 0x11#8 ∧ s.status ≠ 0x21#8 ∧ s.status ≠ 0x41#8 ∧ (s.status.extractLsb' 4 3).toNat ≤ 4

/-! ## The write gate and the errors -/

/-- The write gate and the dispatch of a command, in every state (R101, R104). -/
def Obligations.WriteGate : Prop :=
  ∀ (s : State) (w : HostWrite),
    (s.err ≠ 0#3 → hostWrite w s = .next s) ∧
    (s.err = 0#3 → s.phase ≠ .idle → hostWrite w s = .next { s with err := 3#3 }) ∧
    (s.err = 0#3 → s.phase = .idle →
      match w with
      | .pay a v => hostWrite w s = .next (s.writePay a v)
      | .reg x => hostWrite w s = .next (s.writeReg x)
      | .cmd v =>
        if v = 0x01#8 then hostWrite w s = .next s.encodeCommand
        else if v = 0x02#8 then hostWrite w s = .next s.aidsendCommand
        else hostWrite w s = .next { s with err := 4#3 })

/-- A performed operand write: the register reads as the value given, whatever the value, and every other readable
register, PAY, PB, the frame registers, the sequencer's position, TX and the environment are as before (R102). -/
def Obligations.OperandWritePerformed : Prop :=
  ∀ (s : State) (x : OperandWrite), s.ready →
    ∃ t, hostWrite (.reg x) s = .next t ∧ t.readReg x.target = x.word ∧
      (∀ r, r ≠ x.target → t.readReg r = s.readReg r) ∧ t.pay = s.pay ∧ t.payDraw = s.payDraw ∧ t.pb = s.pb ∧
      t.frameRegs = s.frameRegs ∧ t.phase = s.phase ∧ t.idx = s.idx ∧ t.done = s.done ∧ t.txfail = s.txfail ∧
      t.err = s.err ∧ t.tx = s.tx ∧ t.env = s.env

/-- A performed PAY write: the byte reads as the value given, every other byte of PAY as before, nothing else changes
(R103). -/
def Obligations.PayWritePerformed : Prop :=
  ∀ (s : State) (a : Fin 65535) (v : Byte), s.ready →
    ∃ m, hostWrite (.pay a v) s = .next { s with pay := m } ∧ ({ s with pay := m } : State).payByte a.val = v ∧
      ∀ b, b ≠ a.val → ({ s with pay := m } : State).payByte b = s.payByte b

/-- ENCODE raises `LenRange` exactly when PLEN > 65535; nothing but ERR is written (R161). -/
def Obligations.LenRangeRaised : Prop :=
  ∀ s : State, s.ready →
    (65535 < s.plen.toNat → exec .encode s = .next { s with err := 1#3 }) ∧
    ∀ t, exec .encode s = .next t → (t.err = 1#3 ↔ 65535 < s.plen.toNat)

/-- AIDSEND raises `AidRange` exactly when a coordinate gives `RangeError`; nothing but ERR is written (R162). -/
def Obligations.AidRangeRaised : Prop :=
  ∀ s : State, s.ready →
    ((scale s.lat 10000000 = none ∨ scale s.lon 10000000 = none ∨ scale s.alt 1000 = none) →
      exec .aidsend s = .next { s with err := 2#3 }) ∧
    ∀ t, exec .aidsend s = .next t →
      (t.err = 2#3 ↔ scale s.lat 10000000 = none ∨ scale s.lon 10000000 = none ∨ scale s.alt 1000 = none)

/-- `IllegalCmd` is raised by a performed write to CMD of any other value; nothing is started, no event emitted
(R163). -/
def Obligations.IllegalCmdRaised : Prop :=
  ∀ (s : State) (v : Byte), s.ready →
    (v ≠ 0x01#8 → v ≠ 0x02#8 → hostWrite (.cmd v) s = .next { s with err := 4#3 }) ∧
    ∀ t, hostWrite (.cmd v) s = .next t → (t.err = 4#3 ↔ v ≠ 0x01#8 ∧ v ≠ 0x02#8)

/-- One host write meets at most one error, by the fixed order of checks; a write that meets the first check is
ignored (R167). -/
def Obligations.ErrorPriority : Prop :=
  ∀ (s : State) (w : HostWrite), ∃ t, hostWrite w s = .next t ∧ (s.err ≠ 0#3 → t = s) ∧
    t.err =
      if s.err ≠ 0#3 then s.err
      else if s.phase ≠ .idle then 3#3
      else match w with
        | .cmd v =>
          if v = 0x01#8 then (if 65535 < s.plen.toNat then 1#3 else 0#3)
          else if v = 0x02#8 then
            (if scale s.lat 10000000 = none ∨ scale s.lon 10000000 = none ∨ scale s.alt 1000 = none then 2#3
             else 0#3)
          else 4#3
        | .reg _ => 0#3
        | .pay _ _ => 0#3

/-- While an error stands, no step but a reset clears or changes it, starts a frame, or writes an operand register,
PAY, PB or a frame register (R166, R168). -/
def Obligations.ErrorStandsUntilReset : Prop :=
  ∀ (s t : State), s.err ≠ 0#3 → (∀ rest, s.env.turns ≠ .reset :: rest) → step s = .next t →
    t.err = s.err ∧ (s.phase = .idle → t.phase = .idle ∧ t.tx = s.tx) ∧ t.operandRegs = s.operandRegs ∧
      (∀ a, t.payByte a = s.payByte a) ∧ t.pb = s.pb ∧ t.frameRegs = s.frameRegs

/-! ## The commands -/

/-- An accepted ENCODE: the frame registers latched from the operand registers, the frame started, nothing else
changed; no sink event is emitted (R105, R107). -/
def Obligations.EncodeAccepted : Prop :=
  ∀ s : State, s.err = 0#3 → s.phase = .idle → s.plen.toNat ≤ 65535 →
    exec .encode s = .next { s with
      fCls := s.cls, fId := s.id, fLen := s.plen.extractLsb' 0 16, fSrc := .srcPay
      done := false, txfail := false, ckA := 0#8, ckB := 0#8, idx := 0#16, phase := .beginTx } ∧
    (s.plen.extractLsb' 0 16).toNat = s.plen.toNat

/-- An accepted AIDSEND: PB packed from the operands, the frame registers loaded from the parameters, the frame started,
nothing else changed (R139, R107). -/
def Obligations.AidsendAccepted : Prop :=
  ∀ (s : State) (la lo al : Int), s.err = 0#3 → s.phase = .idle →
    scale s.lat 10000000 = some la → scale s.lon 10000000 = some lo → scale s.alt 1000 = some al →
    exec .aidsend s = .next { s with
      pb := pack ⟨Config.aidMask, la, lo, al, s.year, s.month, s.day, s.hour, s.minute, s.second⟩
      fCls := Config.aidClass, fId := Config.aidId, fLen := 48#16, fSrc := .srcPb
      done := false, txfail := false, ckA := 0#8, ckB := 0#8, idx := 0#16, phase := .beginTx }

/-- Where a command is accepted it answers a next state, and the frame then in flight is the frame of its message:
`Frame(CLS, ID, PAY[0..PLEN-1])` for ENCODE, `Frame(AID_CLASS, AID_ID, PB)` with PB as packed for AIDSEND; nothing of it
has been emitted (R105, R139, R115). -/
def Obligations.AcceptedCommandLatchesItsFrame : Prop :=
  ∀ s : State, s.ready →
    (s.plen.toNat ≤ 65535 → ∃ f t, exec .encode s = .next t ∧ t.phase = .beginTx ∧ t.err = 0#3 ∧ t.tx = s.tx ∧
      frame s.cls s.id ((List.range s.plen.toNat).map s.payByte) = some f ∧ t.frameNow = f ∧
      f.length = 8 + s.plen.toNat) ∧
    ∀ la lo al : Int, scale s.lat 10000000 = some la → scale s.lon 10000000 = some lo → scale s.alt 1000 = some al →
      ∃ f t, exec .aidsend s = .next t ∧ t.phase = .beginTx ∧ t.err = 0#3 ∧ t.tx = s.tx ∧
        frame Config.aidClass Config.aidId
          (pack ⟨Config.aidMask, la, lo, al, s.year, s.month, s.day, s.hour, s.minute, s.second⟩).toList = some f ∧
        t.frameNow = f ∧ f.length = 56

/-- The frame of both commands, accepted, rejected or turned away: the operand registers, every byte of PAY, TX and the
environment are unchanged; ENCODE leaves PB unchanged; where ERR changes nothing else does; and where it does not, the
command was ignored or a frame was started from idle (R105, R139, R164). -/
def Obligations.CommandFrame : Prop :=
  ∀ (i : Instr) (s t : State), exec i s = .next t →
    t.operandRegs = s.operandRegs ∧ (∀ a, t.payByte a = s.payByte a) ∧ t.pay = s.pay ∧ t.tx = s.tx ∧ t.env = s.env ∧
    (i = .encode → t.pb = s.pb) ∧ (t.err ≠ s.err → t = { s with err := t.err }) ∧
    (t.err = s.err → t = s ∨ (s.phase = .idle ∧ t.phase = .beginTx ∧ t.done = false ∧ t.txfail = false))

/-- Every command answers a next state in every state: none stops (R101). -/
def Obligations.CommandsNeverStop : Prop :=
  ∀ (i : Instr) (s : State), ∃ t, exec i s = .next t

/-- `StartFrame` clears the result flags, the accumulators and idx, enters BEGIN, and does nothing else (R107). -/
def Obligations.StartFrameEffect : Prop :=
  ∀ s : State, s.startFrame =
    { s with done := false, txfail := false, ckA := 0#8, ckB := 0#8, idx := 0#16, phase := .beginTx } ∧
    s.startFrame.busy = true

/-! ## The checksum unit and the frame -/

/-- `CkUpd(b)`: ckA gains b modulo 256, then ckB gains the new ckA modulo 256; nothing else changes (R82). -/
def Obligations.CkUpdEffect : Prop :=
  ∀ (s : State) (b : Byte), ∃ x y : Byte, s.ckUpd b = { s with ckA := x, ckB := y } ∧
    x.toNat = (s.ckA.toNat + b.toNat) % 256 ∧ y.toNat = (s.ckB.toNat + x.toNat) % 256

/-- `Cksum`: the accumulation of the list's bytes in ascending order from (0, 0), and what `CkClr` followed by one
`CkUpd` per byte leaves in the accumulators, whatever they held (R83). -/
def Obligations.CksumIsStateful : Prop :=
  ∀ (s : State) (l : List Byte),
    l.foldl State.ckUpd s.ckClr = { s with ckA := (cksum l).1, ckB := (cksum l).2 } ∧ cksum [] = (0#8, 0#8) ∧
    ∀ b : Byte,
      (cksum (l ++ [b])).1.toNat = ((cksum l).1.toNat + b.toNat) % 256 ∧
      (cksum (l ++ [b])).2.toNat = ((cksum l).2.toNat + (cksum (l ++ [b])).1.toNat) % 256

/-- The closed form of the checksum (40_checksum section 4, an inference the spec marks as derived). -/
def Obligations.CksumClosedForm : Prop :=
  ∀ l : List Byte,
    (cksum l).1.toNat = (l.map BitVec.toNat).sum % 256 ∧
    (cksum l).2.toNat = (l.zipIdx.map fun x => (l.length - x.2) * x.1.toNat).sum % 256

/-- Round trip: the checksum of a frame without its sync and checksum bytes is its last two bytes (R86). -/
def Obligations.FrameChecksumRoundTrip : Prop :=
  ∀ (c i : Byte) (p : List Byte), p.length ≤ 65535 →
    ∃ f, frame c i p = some f ∧
      f[f.length - 2]? = some (cksum ((f.drop 2).take (f.length - 4))).1 ∧
      f[f.length - 1]? = some (cksum ((f.drop 2).take (f.length - 4))).2

/-- Flipping one bit of one byte of a checksummed list changes its checksum, in the first byte (40_checksum section 4;
that it is the first byte is an inference the spec marks as derived). -/
def Obligations.SingleBitChangesChecksum : Prop :=
  ∀ (l : List Byte) (i : Nat) (b : Byte) (k : Nat), l[i]? = some b → k < 8 →
    (cksum (l.set i (b ^^^ (1#8 <<< k)))).1 ≠ (cksum l).1

/-- The frame's bytes, position by position, its length, and where it is undefined (R60, R61). -/
def Obligations.FrameFormat : Prop :=
  ∀ (c i : Byte) (p : List Byte),
    (65535 < p.length → frame c i p = none) ∧
    (p.length ≤ 65535 → ∃ f, frame c i p = some f ∧ f.length = 8 + p.length ∧
      f[0]? = some Config.sync1 ∧ f[1]? = some Config.sync2 ∧ f[2]? = some c ∧ f[3]? = some i ∧
      f[4]?.map BitVec.toNat = some (p.length % 256) ∧ f[5]?.map BitVec.toNat = some (p.length / 256) ∧
      (∀ k, k < p.length → f[6 + k]? = p[k]?) ∧
      f[6 + p.length]? =
        some (cksum ([c, i, BitVec.ofNat 8 p.length, BitVec.ofNat 8 (p.length / 256)] ++ p)).1 ∧
      f[7 + p.length]? =
        some (cksum ([c, i, BitVec.ofNat 8 p.length, BitVec.ofNat 8 (p.length / 256)] ++ p)).2)

/-! ## The packer -/

/-- The field stores: each changes exactly its own bytes, little-endian, in two's complement (R134, R135, R136). -/
def Obligations.PutStores : Prop :=
  ∀ (B : AidBuffer) (o : Nat) (j : Fin 48),
    (∀ (h : o < 48) (v : Byte), (put8 B o v h)[j] = if j.val = o then v else B[j]) ∧
    (∀ (h : o + 1 < 48) (v : Half), (put16le B o v h)[j].toNat =
      if j.val = o then v.toNat % 256 else if j.val = o + 1 then v.toNat / 256 else B[j].toNat) ∧
    ∀ (h : o + 3 < 48) (n : Int), ((put32le B o n h)[j].toNat : Int) =
      if j.val = o then (n % 2 ^ 32) % 256
      else if j.val = o + 1 then (n % 2 ^ 32) / 2 ^ 8 % 256
      else if j.val = o + 2 then (n % 2 ^ 32) / 2 ^ 16 % 256
      else if j.val = o + 3 then (n % 2 ^ 32) / 2 ^ 24 % 256
      else (B[j].toNat : Int)

/-- The layout of the AidingPayload, byte by byte (R63, R64, R138). -/
def Obligations.PackLayout : Prop :=
  ∀ x : AidOperands,
    (pack x).toList =
      le16 x.mask ++ List.replicate 14 0#8 ++ le32 (u32 x.la) ++ le32 (u32 x.lo) ++ le32 (u32 x.al) ++ le16 x.year ++
        [x.month, x.day, x.hour, x.minute, x.second] ++ List.replicate 13 0#8

/-- The source's packing example (R140). -/
def Obligations.PackingExample : Prop :=
  scale 0x4044810CB295E9E2#64 10000000 = some 410082000 ∧ scale 0x403CFA786C22680A#64 10000000 = some 289784000 ∧
    scale 0x4049000000000000#64 1000 = some 50000 ∧
    ∀ (m y : Half) (mo d h mi s : Byte),
      ((pack ⟨m, 410082000, 289784000, 50000, y, mo, d, h, mi, s⟩).toList.drop 16).take 12 =
        [0xD0#8, 0x5A#8, 0x71#8, 0x18#8, 0xC0#8, 0xC0#8, 0x45#8, 0x11#8, 0x50#8, 0xC3#8, 0x00#8, 0x00#8]

/-- PB is written only by an accepted AIDSEND and by reset (R17). -/
def Obligations.OnlyAidsendWritesPb : Prop :=
  ∀ (s t : State), step s = .next t → t.pb ≠ s.pb →
    (∃ rest, s.env.turns = .reset :: rest) ∨
      (s.ready ∧ t.phase = .beginTx ∧ ∃ rest, s.env.turns = .host (.write (.cmd 0x02#8)) :: rest)

/-- The reserved bytes of PB stay zero at every step (R64). -/
def Obligations.ReservedBytesStayZero : Prop :=
  ∀ (s t : State), s.reservedZero → step s = .next t → t.reservedZero

/-! ## Scaling -/

/-- The classes and values of the binary64 patterns, by plain arithmetic on the pattern (R68). -/
def Obligations.Binary64Classes : Prop :=
  ∀ w : Double, ∃ (sg : Bool) (e f : Nat),
    w.toNat = (if sg then 1 else 0) * 2 ^ 63 + e * 2 ^ 52 + f ∧ e < 2 ^ 11 ∧ f < 2 ^ 52 ∧
    Binary64.ofPattern w =
      if e = 2047 then (if f = 0 then .infinite sg else .nan)
      else if e = 0 then .finite sg f 0
      else .finite sg (2 ^ 52 + f) (e - 1)

/-- `Scale` is `RoundHalfAway` of `RN64` of the product: NaN and the infinities give `RangeError`; a finite pattern gives
it exactly when the rounded product is infinite or the rounded integer is no signed 32-bit one, and else gives that
integer (R132; magnitudes in units of 2^-1074 are log entry 11). -/
def Obligations.ScaleRange : Prop :=
  ∀ (w : Double) (k : Nat),
    ((w.extractLsb' 52 11).toNat = 2047 → scale w k = none) ∧
    (∀ n, scale w k = some n → -2147483648 ≤ n ∧ n ≤ 2147483647) ∧
    ∀ (neg : Bool) (sig ex : Nat), Binary64.ofPattern w = .finite neg sig ex →
      (scale w k = none ↔ rn64 (sig * k) ex = none ∨
        ∃ q x, rn64 (sig * k) ex = some (q, x) ∧
          ¬(-2147483648 ≤ roundHalfAway neg q x ∧ roundHalfAway neg q x ≤ 2147483647)) ∧
      ∀ q x, rn64 (sig * k) ex = some (q, x) → -2147483648 ≤ roundHalfAway neg q x →
        roundHalfAway neg q x ≤ 2147483647 → scale w k = some (roundHalfAway neg q x)

/-- `RN64`: the answer is a binary64 magnitude, no other is nearer, and where another is equally near the answer's
significand is even (R132). Magnitudes are counted in units of the smallest subnormal, 2^-1074. -/
def Obligations.ProductRoundsToNearest : Prop :=
  ∀ m e q x : Nat, rn64 m e = some (q, x) →
    q ≤ 2 ^ 53 ∧ q * 2 ^ x < 2 ^ 2098 ∧
    ∀ a b : Nat, a < 2 ^ 53 →
      |(m * 2 ^ e : Int) - q * 2 ^ x| ≤ |(m * 2 ^ e : Int) - a * 2 ^ b| ∧
      (|(m * 2 ^ e : Int) - q * 2 ^ x| = |(m * 2 ^ e : Int) - a * 2 ^ b| → a * 2 ^ b ≠ q * 2 ^ x → q % 2 = 0)

/-- `RN64` becomes an infinity exactly for magnitudes of at least 2^1024 - 2^970 (R132). -/
def Obligations.ProductOverflow : Prop :=
  ∀ m e : Nat, rn64 m e = none ↔ 2 ^ 2098 - 2 ^ 2044 ≤ m * 2 ^ e

/-- `RoundHalfAway`: floor(r + 1/2) of the magnitude, with the sign kept (R133), for every r that is a whole number of
2^-1074, as every binary64 value is (log entry 11). -/
def Obligations.RoundHalfAwayFloor : Prop :=
  ∀ (neg : Bool) (m e : Nat), ∃ n : Nat,
    roundHalfAway neg m e = (if neg then -(n : Int) else (n : Int)) ∧
    n * 2 ^ 1074 ≤ m * 2 ^ e + 2 ^ 1073 ∧ m * 2 ^ e + 2 ^ 1073 < (n + 1) * 2 ^ 1074

/-- Where the exact product of a coordinate and the multiplier is an integer in range, -2147483648 included, that integer
is the result (R132; 42_aiding_packer section 2; log entry 11). -/
def Obligations.ScaleOfExactProduct : Prop :=
  ∀ (w : Double) (k : Nat) (neg : Bool) (sig ex n : Nat), Binary64.ofPattern w = .finite neg sig ex →
    sig * k * 2 ^ ex = n * 2 ^ 1074 → n ≤ 2147483647 ∨ (neg = true ∧ n = 2147483648) →
    scale w k = some (if neg then -(n : Int) else (n : Int))

/-- The result is within 1 of the exact product (93 U6, R132; log entry 11). -/
def Obligations.ScaleWithinOne : Prop :=
  ∀ (w : Double) (k : Nat) (neg : Bool) (sig ex : Nat) (n : Int), Binary64.ofPattern w = .finite neg sig ex →
    scale w k = some n →
    |n * 2 ^ 1074 - (if neg then -1 else 1) * (sig * k * 2 ^ ex : Int)| < 2 ^ 1074

/-! ## The sequencer -/

/-- One step of the sequencer in each phase but PAYLOAD (R112). -/
def Obligations.SequencerPhases : Prop :=
  ∀ s : State,
    (s.phase = .beginTx → seqStep s = .next { s with tx := s.tx ++ [.beginTx Config.sinkAddr], phase := .sync1 }) ∧
    (s.phase = .sync1 → seqStep s = .next { s with tx := s.tx ++ [.data Config.sync1], phase := .sync2 }) ∧
    (s.phase = .sync2 → seqStep s = .next { s with tx := s.tx ++ [.data Config.sync2], phase := .cls }) ∧
    (s.phase = .cls → seqStep s = .next { s.ckUpd s.fCls with tx := s.tx ++ [.data s.fCls], phase := .idf }) ∧
    (s.phase = .idf → seqStep s = .next { s.ckUpd s.fId with tx := s.tx ++ [.data s.fId], phase := .lenLo }) ∧
    (s.phase = .lenLo → ∃ b : Byte, b.toNat = s.fLen.toNat % 256 ∧
      seqStep s = .next { s.ckUpd b with tx := s.tx ++ [.data b], phase := .lenHi }) ∧
    (s.phase = .lenHi → ∃ b : Byte, b.toNat = s.fLen.toNat / 256 ∧
      seqStep s = .next { s.ckUpd b with
        tx := s.tx ++ [.data b], idx := 0#16, phase := if s.fLen.toNat = 0 then .ckA else .payload }) ∧
    (s.phase = .ckA → seqStep s = .next { s with tx := s.tx ++ [.data s.ckA], phase := .ckB }) ∧
    (s.phase = .ckB → seqStep s = .next { s with tx := s.tx ++ [.data s.ckB], phase := .endTx }) ∧
    (s.phase = .endTx → ∃ t, seqStep s = .next t ∧ t.tx = s.tx ++ [.endTx s.sinkAck] ∧ t.phase = .idle ∧
      t.done = (s.done || decide (s.sinkAck = .ackOk)) ∧ t.txfail = (s.txfail || decide (s.sinkAck = .ackFail)) ∧
      t.err = s.err ∧ t.ckA = s.ckA ∧ t.ckB = s.ckB ∧ t.idx = s.idx)

/-- One step of the sequencer in phase PAYLOAD, at every index the frame has (R112, R113). -/
def Obligations.PayloadPhase : Prop :=
  ∀ s : State, s.phase = .payload → s.idx.toNat < s.fLen.toNat → (s.fSrc = .srcPb → s.fLen.toNat = 48) →
    ∃ b : Byte,
      (s.fSrc = .srcPay → b = s.payByte s.idx.toNat) ∧
      (s.fSrc = .srcPb → ∃ h : s.idx.toNat < 48, b = s.pb[s.idx.toNat]) ∧
      (s.idx.toNat + 1 = s.fLen.toNat →
        seqStep s = .next { s.ckUpd b with tx := s.tx ++ [.data b], idx := 0#16, phase := .ckA }) ∧
      (s.idx.toNat + 1 ≠ s.fLen.toNat → ∃ i : Half, i.toNat = s.idx.toNat + 1 ∧
        seqStep s = .next { s.ckUpd b with tx := s.tx ++ [.data b], idx := i })

/-- The frame of a sequencer step, in every state (R112). -/
def Obligations.SequencerFrame : Prop :=
  ∀ (s t : State), seqStep s = .next t →
    t.operandRegs = s.operandRegs ∧ (∀ a, t.payByte a = s.payByte a) ∧ t.pay = s.pay ∧ t.pb = s.pb ∧
    t.frameRegs = s.frameRegs ∧ t.err = s.err ∧ t.env.turns = s.env.turns ∧ t.env.hostData = s.env.hostData ∧
    (s.phase ≠ .endTx → t.done = s.done ∧ t.txfail = s.txfail ∧ t.env = s.env) ∧
    (s.phase = .idle → t = s)

/-! ## Invariants and whole-machine rules -/

/-- The state right after reset meets the invariant (R24, R25). -/
def Obligations.ResetMeetsInvariant : Prop := State.reset.Inv ∧ State.reset.reservedZero

/-- Every step keeps the invariant (10_state section 8). -/
def Obligations.StepKeepsInvariant : Prop :=
  ∀ (s t : State), s.Inv → step s = .next t → t.Inv

/-- No step stops where the invariant holds: no bounds fault exists (R113). -/
def Obligations.InvariantStepsNeverStop : Prop :=
  ∀ s : State, s.Inv → ∃ t, step s = .next t

/-- A reset gives every component its reset value, in any state; the environment goes on (R180, R24). PAY is left to
`PAY is a fresh draw` of log entry 5. -/
def Obligations.ResetGivesResetValues : Prop :=
  ∀ (s : State) (rest : List Turn), s.env.turns = .reset :: rest →
    ∃ t, step s = .next t ∧
      t.operandRegs = ⟨0#8, 0#8, 0#32, 0#64, 0#64, 0#64, 0#16, 0#8, 0#8, 0#8, 0#8, 0#8⟩ ∧
      (∀ o : Fin 48, t.pb[o] = 0#8) ∧ t.ckA = 0#8 ∧ t.ckB = 0#8 ∧ t.frameRegs = ⟨0#8, 0#8, 0#16, .srcPay⟩ ∧
      t.phase = .idle ∧ t.idx = 0#16 ∧ t.done = false ∧ t.txfail = false ∧ t.err = 0#3 ∧ t.status = 0x00#8 ∧
      t.env = { s.env with turns := rest } ∧ (∀ a, t.payByte a = Config.payInit (s.payDraw + 1) a)

/-- A reset appends `Abort` exactly when a transaction is open, and otherwise leaves TX alone; FENC is idle then, so
the transaction gets no further event (R181). -/
def Obligations.ResetAbortsOpenTransaction : Prop :=
  ∀ (s : State) (rest : List Turn), s.env.turns = .reset :: rest →
    ∃ t, step s = .next t ∧ t.phase = .idle ∧
      (s.phase = .idle ∨ s.phase = .beginTx → t.tx = s.tx) ∧
      (s.phase ≠ .idle → s.phase ≠ .beginTx → t.tx = s.tx ++ [.abort])

/-- FENC only appends to TX, at most one event a step (R22). -/
def Obligations.TxOnlyGrows : Prop :=
  ∀ (s t : State), step s = .next t → t.tx = s.tx ∨ ∃ ev, t.tx = s.tx ++ [ev]

/-- While a frame is in flight, no step but a reset changes the operand registers, PAY, PB or the frame registers
(10_state section 8 item 6; R189). -/
def Obligations.BusyLocksFrameData : Prop :=
  ∀ (s t : State), s.phase ≠ .idle → (∀ rest, s.env.turns ≠ .reset :: rest) → step s = .next t →
    t.operandRegs = s.operandRegs ∧ (∀ a, t.payByte a = s.payByte a) ∧ t.pay = s.pay ∧ t.pb = s.pb ∧
      t.frameRegs = s.frameRegs

/-- A frame starts only from a ready FENC, by a write of a legal command code (R101, R117). -/
def Obligations.OnlyCommandsStartFrames : Prop :=
  ∀ (s t : State), step s = .next t → s.phase = .idle → t.phase ≠ .idle →
    s.err = 0#3 ∧ t.phase = .beginTx ∧
      ∃ v rest, s.env.turns = .host (.write (.cmd v)) :: rest ∧ legalCommand v = true

/-! ## Whole frames -/

/-- The frame law: whatever host steps come between, after exactly F_LEN + 10 sequencer steps and no reset, TX has
gained the one transaction of the latched frame, the accumulators hold its last two bytes, the result flags tell the
sink's answer, the frame's data are as at acceptance, and ERR is as it was or records the `Overlap` of a host write in
between (41_frame_encoder section 5, the frame law, which the spec marks as derived). -/
def Obligations.FrameLaw : Prop :=
  ∀ (s : State) (l rest : List Turn),
    s.phase = .beginTx → s.idx = 0#16 → s.ckA = 0#8 → s.ckB = 0#8 → s.done = false → s.txfail = false →
    (s.fSrc = .srcPb → s.fLen.toNat = 48) →
    (∀ x ∈ l, x.plain = true) → sequencerTurns l = s.fLen.toNat + 9 → s.env.turns = l ++ .sequencer :: rest →
    ∃ f t, frame s.fCls s.fId s.payload = some f ∧ runSteps (l.length + 1) s = .next t ∧ t.phase = .idle ∧
      t.tx = s.tx ++ transaction f s.sinkAck ∧ f.drop (6 + s.fLen.toNat) = [t.ckA, t.ckB] ∧
      t.done = decide (s.sinkAck = .ackOk) ∧ t.txfail = decide (s.sinkAck = .ackFail) ∧
      t.operandRegs = s.operandRegs ∧ t.pay = s.pay ∧ (∀ a, t.payByte a = s.payByte a) ∧ t.pb = s.pb ∧
      t.frameRegs = s.frameRegs ∧ t.env.turns = rest ∧
      t.err = if s.err = 0#3 ∧ l.any Turn.isWrite then 3#3 else s.err

/-- ENCODE end to end: from a ready FENC with nothing else scheduled, the command and PLEN + 10 sequencer steps later,
TX has gained exactly the transaction of `Frame(CLS, ID, PAY[0..PLEN-1])`; the operands and PAY are unchanged and FENC
is idle and not frozen (R105, R114). That the sequencer goes on with nothing scheduled is log entry 2. -/
def Obligations.EncodeSendsItsFrame : Prop :=
  ∀ s : State, s.ready → s.plen.toNat ≤ 65535 → s.env.turns = [] →
    ∃ f t, frame s.cls s.id ((List.range s.plen.toNat).map s.payByte) = some f ∧
      runSteps (s.plen.toNat + 11) (s.withFetchWord 8 0x01) = .next t ∧
      t.tx = s.tx ++ transaction f s.sinkAck ∧ t.phase = .idle ∧ t.err = 0#3 ∧
      t.done = decide (s.sinkAck = .ackOk) ∧ t.txfail = decide (s.sinkAck = .ackFail) ∧
      t.operandRegs = s.operandRegs ∧ (∀ a, t.payByte a = s.payByte a) ∧ t.pb = s.pb

/-- AIDSEND end to end: the command and 58 sequencer steps later, TX has gained exactly the transaction of
`Frame(AID_CLASS, AID_ID, PB)` with PB as packed (R139, R114). That the sequencer goes on with nothing scheduled is log
entry 2. -/
def Obligations.AidsendSendsItsFrame : Prop :=
  ∀ (s : State) (la lo al : Int), s.ready → s.env.turns = [] →
    scale s.lat 10000000 = some la → scale s.lon 10000000 = some lo → scale s.alt 1000 = some al →
    ∃ f t, frame Config.aidClass Config.aidId
        (pack ⟨Config.aidMask, la, lo, al, s.year, s.month, s.day, s.hour, s.minute, s.second⟩).toList = some f ∧
      runSteps 59 (s.withFetchWord 8 0x02) = .next t ∧
      t.tx = s.tx ++ transaction f s.sinkAck ∧ t.phase = .idle ∧ t.err = 0#3 ∧
      t.done = decide (s.sinkAck = .ackOk) ∧ t.txfail = decide (s.sinkAck = .ackFail) ∧
      t.operandRegs = s.operandRegs ∧ (∀ a, t.payByte a = s.payByte a)

/-- Determinism of frames: two machines that agree on CLS, ID, PLEN and the payload bytes send byte-identical frames,
whatever else differs (R87). That the sequencer goes on with nothing scheduled is log entry 2. -/
def Obligations.FramesDependOnMessageOnly : Prop :=
  ∀ s s' : State, s.ready → s'.ready → s.plen.toNat ≤ 65535 → s.env.turns = [] → s'.env.turns = [] →
    s'.cls = s.cls → s'.id = s.id → s'.plen = s.plen → (∀ a, a < s.plen.toNat → s'.payByte a = s.payByte a) →
    ∃ f t t', runSteps (s.plen.toNat + 11) (s.withFetchWord 8 0x01) = .next t ∧
      runSteps (s.plen.toNat + 11) (s'.withFetchWord 8 0x01) = .next t' ∧
      t.tx = s.tx ++ transaction f s.sinkAck ∧ t'.tx = s'.tx ++ transaction f s'.sinkAck

/-- A frame in flight ends after exactly the steps left to it, and not before, when nothing else is scheduled; from
BEGIN that is F_LEN + 10 (R114). That the sequencer goes on with nothing scheduled is log entry 2. -/
def Obligations.FrameEndsInItsSteps : Prop :=
  ∀ s : State, s.Inv → s.env.turns = [] →
    (s.phase = .beginTx → s.stepsLeft = s.fLen.toNat + 10) ∧
    (∃ t, runSteps s.stepsLeft s = .next t ∧ t.phase = .idle ∧
      (s.phase ≠ .idle → t.done = decide (s.sinkAck = .ackOk) ∧ t.txfail = decide (s.sinkAck = .ackFail))) ∧
    ∀ k, k < s.stepsLeft → ∃ u, runSteps k s = .next u ∧ u.phase ≠ .idle

/-- A WAIT lets the frame in flight end, then hands the host a STATUS with BUSY = 0 (R69; log entry 12). -/
def Obligations.WaitEndsIdle : Prop :=
  ∀ (s : State) (rest : List Turn), s.Inv → s.env.turns = .wait :: rest →
    ∃ t, runSteps (s.stepsLeft + 1) s = .next t ∧ t.phase = .idle ∧ t.env.turns = rest ∧ t.err = s.err ∧
      t.env.hostData = some (.byte t.status) ∧ t.status.getLsbD 0 = false
end

