-- ==== Sys2Proof/Laws/State.lean ====
section
/-! SUPPORT. One lemma per field per shared update of State, so that no later proof unfolds a record update. -/

namespace Sys2Proof.Machine

/-! ## `State.emit` -/

@[simp] theorem State.emit_cls (s : State) (ev : SinkEvent) : (s.emit ev).cls = s.cls := rfl
@[simp] theorem State.emit_id (s : State) (ev : SinkEvent) : (s.emit ev).id = s.id := rfl
@[simp] theorem State.emit_plen (s : State) (ev : SinkEvent) : (s.emit ev).plen = s.plen := rfl
@[simp] theorem State.emit_lat (s : State) (ev : SinkEvent) : (s.emit ev).lat = s.lat := rfl
@[simp] theorem State.emit_lon (s : State) (ev : SinkEvent) : (s.emit ev).lon = s.lon := rfl
@[simp] theorem State.emit_alt (s : State) (ev : SinkEvent) : (s.emit ev).alt = s.alt := rfl
@[simp] theorem State.emit_year (s : State) (ev : SinkEvent) : (s.emit ev).year = s.year := rfl
@[simp] theorem State.emit_month (s : State) (ev : SinkEvent) : (s.emit ev).month = s.month := rfl
@[simp] theorem State.emit_day (s : State) (ev : SinkEvent) : (s.emit ev).day = s.day := rfl
@[simp] theorem State.emit_hour (s : State) (ev : SinkEvent) : (s.emit ev).hour = s.hour := rfl
@[simp] theorem State.emit_minute (s : State) (ev : SinkEvent) : (s.emit ev).minute = s.minute := rfl
@[simp] theorem State.emit_second (s : State) (ev : SinkEvent) : (s.emit ev).second = s.second := rfl
@[simp] theorem State.emit_pay (s : State) (ev : SinkEvent) : (s.emit ev).pay = s.pay := rfl
@[simp] theorem State.emit_payDraw (s : State) (ev : SinkEvent) : (s.emit ev).payDraw = s.payDraw := rfl
@[simp] theorem State.emit_pb (s : State) (ev : SinkEvent) : (s.emit ev).pb = s.pb := rfl
@[simp] theorem State.emit_ckA (s : State) (ev : SinkEvent) : (s.emit ev).ckA = s.ckA := rfl
@[simp] theorem State.emit_ckB (s : State) (ev : SinkEvent) : (s.emit ev).ckB = s.ckB := rfl
@[simp] theorem State.emit_fCls (s : State) (ev : SinkEvent) : (s.emit ev).fCls = s.fCls := rfl
@[simp] theorem State.emit_fId (s : State) (ev : SinkEvent) : (s.emit ev).fId = s.fId := rfl
@[simp] theorem State.emit_fLen (s : State) (ev : SinkEvent) : (s.emit ev).fLen = s.fLen := rfl
@[simp] theorem State.emit_fSrc (s : State) (ev : SinkEvent) : (s.emit ev).fSrc = s.fSrc := rfl
@[simp] theorem State.emit_phase (s : State) (ev : SinkEvent) : (s.emit ev).phase = s.phase := rfl
@[simp] theorem State.emit_idx (s : State) (ev : SinkEvent) : (s.emit ev).idx = s.idx := rfl
@[simp] theorem State.emit_done (s : State) (ev : SinkEvent) : (s.emit ev).done = s.done := rfl
@[simp] theorem State.emit_txfail (s : State) (ev : SinkEvent) : (s.emit ev).txfail = s.txfail := rfl
@[simp] theorem State.emit_err (s : State) (ev : SinkEvent) : (s.emit ev).err = s.err := rfl
@[simp] theorem State.emit_tx (s : State) (ev : SinkEvent) : (s.emit ev).tx = s.tx ++ [ev] := rfl
@[simp] theorem State.emit_env (s : State) (ev : SinkEvent) : (s.emit ev).env = s.env := rfl

/-! ## `State.ckClr` -/

@[simp] theorem State.ckClr_cls (s : State) : (s.ckClr).cls = s.cls := rfl
@[simp] theorem State.ckClr_id (s : State) : (s.ckClr).id = s.id := rfl
@[simp] theorem State.ckClr_plen (s : State) : (s.ckClr).plen = s.plen := rfl
@[simp] theorem State.ckClr_lat (s : State) : (s.ckClr).lat = s.lat := rfl
@[simp] theorem State.ckClr_lon (s : State) : (s.ckClr).lon = s.lon := rfl
@[simp] theorem State.ckClr_alt (s : State) : (s.ckClr).alt = s.alt := rfl
@[simp] theorem State.ckClr_year (s : State) : (s.ckClr).year = s.year := rfl
@[simp] theorem State.ckClr_month (s : State) : (s.ckClr).month = s.month := rfl
@[simp] theorem State.ckClr_day (s : State) : (s.ckClr).day = s.day := rfl
@[simp] theorem State.ckClr_hour (s : State) : (s.ckClr).hour = s.hour := rfl
@[simp] theorem State.ckClr_minute (s : State) : (s.ckClr).minute = s.minute := rfl
@[simp] theorem State.ckClr_second (s : State) : (s.ckClr).second = s.second := rfl
@[simp] theorem State.ckClr_pay (s : State) : (s.ckClr).pay = s.pay := rfl
@[simp] theorem State.ckClr_payDraw (s : State) : (s.ckClr).payDraw = s.payDraw := rfl
@[simp] theorem State.ckClr_pb (s : State) : (s.ckClr).pb = s.pb := rfl
@[simp] theorem State.ckClr_ckA (s : State) : (s.ckClr).ckA = 0#8 := rfl
@[simp] theorem State.ckClr_ckB (s : State) : (s.ckClr).ckB = 0#8 := rfl
@[simp] theorem State.ckClr_fCls (s : State) : (s.ckClr).fCls = s.fCls := rfl
@[simp] theorem State.ckClr_fId (s : State) : (s.ckClr).fId = s.fId := rfl
@[simp] theorem State.ckClr_fLen (s : State) : (s.ckClr).fLen = s.fLen := rfl
@[simp] theorem State.ckClr_fSrc (s : State) : (s.ckClr).fSrc = s.fSrc := rfl
@[simp] theorem State.ckClr_phase (s : State) : (s.ckClr).phase = s.phase := rfl
@[simp] theorem State.ckClr_idx (s : State) : (s.ckClr).idx = s.idx := rfl
@[simp] theorem State.ckClr_done (s : State) : (s.ckClr).done = s.done := rfl
@[simp] theorem State.ckClr_txfail (s : State) : (s.ckClr).txfail = s.txfail := rfl
@[simp] theorem State.ckClr_err (s : State) : (s.ckClr).err = s.err := rfl
@[simp] theorem State.ckClr_tx (s : State) : (s.ckClr).tx = s.tx := rfl
@[simp] theorem State.ckClr_env (s : State) : (s.ckClr).env = s.env := rfl

/-! ## `State.ckUpd` -/

@[simp] theorem State.ckUpd_cls (s : State) (b : Byte) : (s.ckUpd b).cls = s.cls := rfl
@[simp] theorem State.ckUpd_id (s : State) (b : Byte) : (s.ckUpd b).id = s.id := rfl
@[simp] theorem State.ckUpd_plen (s : State) (b : Byte) : (s.ckUpd b).plen = s.plen := rfl
@[simp] theorem State.ckUpd_lat (s : State) (b : Byte) : (s.ckUpd b).lat = s.lat := rfl
@[simp] theorem State.ckUpd_lon (s : State) (b : Byte) : (s.ckUpd b).lon = s.lon := rfl
@[simp] theorem State.ckUpd_alt (s : State) (b : Byte) : (s.ckUpd b).alt = s.alt := rfl
@[simp] theorem State.ckUpd_year (s : State) (b : Byte) : (s.ckUpd b).year = s.year := rfl
@[simp] theorem State.ckUpd_month (s : State) (b : Byte) : (s.ckUpd b).month = s.month := rfl
@[simp] theorem State.ckUpd_day (s : State) (b : Byte) : (s.ckUpd b).day = s.day := rfl
@[simp] theorem State.ckUpd_hour (s : State) (b : Byte) : (s.ckUpd b).hour = s.hour := rfl
@[simp] theorem State.ckUpd_minute (s : State) (b : Byte) : (s.ckUpd b).minute = s.minute := rfl
@[simp] theorem State.ckUpd_second (s : State) (b : Byte) : (s.ckUpd b).second = s.second := rfl
@[simp] theorem State.ckUpd_pay (s : State) (b : Byte) : (s.ckUpd b).pay = s.pay := rfl
@[simp] theorem State.ckUpd_payDraw (s : State) (b : Byte) : (s.ckUpd b).payDraw = s.payDraw := rfl
@[simp] theorem State.ckUpd_pb (s : State) (b : Byte) : (s.ckUpd b).pb = s.pb := rfl
@[simp] theorem State.ckUpd_ckA (s : State) (b : Byte) : (s.ckUpd b).ckA = (ckPair (s.ckA, s.ckB) b).1 := rfl
@[simp] theorem State.ckUpd_ckB (s : State) (b : Byte) : (s.ckUpd b).ckB = (ckPair (s.ckA, s.ckB) b).2 := rfl
@[simp] theorem State.ckUpd_fCls (s : State) (b : Byte) : (s.ckUpd b).fCls = s.fCls := rfl
@[simp] theorem State.ckUpd_fId (s : State) (b : Byte) : (s.ckUpd b).fId = s.fId := rfl
@[simp] theorem State.ckUpd_fLen (s : State) (b : Byte) : (s.ckUpd b).fLen = s.fLen := rfl
@[simp] theorem State.ckUpd_fSrc (s : State) (b : Byte) : (s.ckUpd b).fSrc = s.fSrc := rfl
@[simp] theorem State.ckUpd_phase (s : State) (b : Byte) : (s.ckUpd b).phase = s.phase := rfl
@[simp] theorem State.ckUpd_idx (s : State) (b : Byte) : (s.ckUpd b).idx = s.idx := rfl
@[simp] theorem State.ckUpd_done (s : State) (b : Byte) : (s.ckUpd b).done = s.done := rfl
@[simp] theorem State.ckUpd_txfail (s : State) (b : Byte) : (s.ckUpd b).txfail = s.txfail := rfl
@[simp] theorem State.ckUpd_err (s : State) (b : Byte) : (s.ckUpd b).err = s.err := rfl
@[simp] theorem State.ckUpd_tx (s : State) (b : Byte) : (s.ckUpd b).tx = s.tx := rfl
@[simp] theorem State.ckUpd_env (s : State) (b : Byte) : (s.ckUpd b).env = s.env := rfl

/-! ## `State.emitSummed` -/

@[simp] theorem State.emitSummed_cls (s : State) (b : Byte) : (s.emitSummed b).cls = s.cls := rfl
@[simp] theorem State.emitSummed_id (s : State) (b : Byte) : (s.emitSummed b).id = s.id := rfl
@[simp] theorem State.emitSummed_plen (s : State) (b : Byte) : (s.emitSummed b).plen = s.plen := rfl
@[simp] theorem State.emitSummed_lat (s : State) (b : Byte) : (s.emitSummed b).lat = s.lat := rfl
@[simp] theorem State.emitSummed_lon (s : State) (b : Byte) : (s.emitSummed b).lon = s.lon := rfl
@[simp] theorem State.emitSummed_alt (s : State) (b : Byte) : (s.emitSummed b).alt = s.alt := rfl
@[simp] theorem State.emitSummed_year (s : State) (b : Byte) : (s.emitSummed b).year = s.year := rfl
@[simp] theorem State.emitSummed_month (s : State) (b : Byte) : (s.emitSummed b).month = s.month := rfl
@[simp] theorem State.emitSummed_day (s : State) (b : Byte) : (s.emitSummed b).day = s.day := rfl
@[simp] theorem State.emitSummed_hour (s : State) (b : Byte) : (s.emitSummed b).hour = s.hour := rfl
@[simp] theorem State.emitSummed_minute (s : State) (b : Byte) : (s.emitSummed b).minute = s.minute := rfl
@[simp] theorem State.emitSummed_second (s : State) (b : Byte) : (s.emitSummed b).second = s.second := rfl
@[simp] theorem State.emitSummed_pay (s : State) (b : Byte) : (s.emitSummed b).pay = s.pay := rfl
@[simp] theorem State.emitSummed_payDraw (s : State) (b : Byte) : (s.emitSummed b).payDraw = s.payDraw := rfl
@[simp] theorem State.emitSummed_pb (s : State) (b : Byte) : (s.emitSummed b).pb = s.pb := rfl
@[simp] theorem State.emitSummed_ckA (s : State) (b : Byte) : (s.emitSummed b).ckA = (ckPair (s.ckA, s.ckB) b).1 := rfl
@[simp] theorem State.emitSummed_ckB (s : State) (b : Byte) : (s.emitSummed b).ckB = (ckPair (s.ckA, s.ckB) b).2 := rfl
@[simp] theorem State.emitSummed_fCls (s : State) (b : Byte) : (s.emitSummed b).fCls = s.fCls := rfl
@[simp] theorem State.emitSummed_fId (s : State) (b : Byte) : (s.emitSummed b).fId = s.fId := rfl
@[simp] theorem State.emitSummed_fLen (s : State) (b : Byte) : (s.emitSummed b).fLen = s.fLen := rfl
@[simp] theorem State.emitSummed_fSrc (s : State) (b : Byte) : (s.emitSummed b).fSrc = s.fSrc := rfl
@[simp] theorem State.emitSummed_phase (s : State) (b : Byte) : (s.emitSummed b).phase = s.phase := rfl
@[simp] theorem State.emitSummed_idx (s : State) (b : Byte) : (s.emitSummed b).idx = s.idx := rfl
@[simp] theorem State.emitSummed_done (s : State) (b : Byte) : (s.emitSummed b).done = s.done := rfl
@[simp] theorem State.emitSummed_txfail (s : State) (b : Byte) : (s.emitSummed b).txfail = s.txfail := rfl
@[simp] theorem State.emitSummed_err (s : State) (b : Byte) : (s.emitSummed b).err = s.err := rfl
@[simp] theorem State.emitSummed_tx (s : State) (b : Byte) : (s.emitSummed b).tx = s.tx ++ [.data b] := rfl
@[simp] theorem State.emitSummed_env (s : State) (b : Byte) : (s.emitSummed b).env = s.env := rfl

/-! ## `State.raise` -/

@[simp] theorem State.raise_cls (s : State) (e : ErrorCause) : (s.raise e).cls = s.cls := rfl
@[simp] theorem State.raise_id (s : State) (e : ErrorCause) : (s.raise e).id = s.id := rfl
@[simp] theorem State.raise_plen (s : State) (e : ErrorCause) : (s.raise e).plen = s.plen := rfl
@[simp] theorem State.raise_lat (s : State) (e : ErrorCause) : (s.raise e).lat = s.lat := rfl
@[simp] theorem State.raise_lon (s : State) (e : ErrorCause) : (s.raise e).lon = s.lon := rfl
@[simp] theorem State.raise_alt (s : State) (e : ErrorCause) : (s.raise e).alt = s.alt := rfl
@[simp] theorem State.raise_year (s : State) (e : ErrorCause) : (s.raise e).year = s.year := rfl
@[simp] theorem State.raise_month (s : State) (e : ErrorCause) : (s.raise e).month = s.month := rfl
@[simp] theorem State.raise_day (s : State) (e : ErrorCause) : (s.raise e).day = s.day := rfl
@[simp] theorem State.raise_hour (s : State) (e : ErrorCause) : (s.raise e).hour = s.hour := rfl
@[simp] theorem State.raise_minute (s : State) (e : ErrorCause) : (s.raise e).minute = s.minute := rfl
@[simp] theorem State.raise_second (s : State) (e : ErrorCause) : (s.raise e).second = s.second := rfl
@[simp] theorem State.raise_pay (s : State) (e : ErrorCause) : (s.raise e).pay = s.pay := rfl
@[simp] theorem State.raise_payDraw (s : State) (e : ErrorCause) : (s.raise e).payDraw = s.payDraw := rfl
@[simp] theorem State.raise_pb (s : State) (e : ErrorCause) : (s.raise e).pb = s.pb := rfl
@[simp] theorem State.raise_ckA (s : State) (e : ErrorCause) : (s.raise e).ckA = s.ckA := rfl
@[simp] theorem State.raise_ckB (s : State) (e : ErrorCause) : (s.raise e).ckB = s.ckB := rfl
@[simp] theorem State.raise_fCls (s : State) (e : ErrorCause) : (s.raise e).fCls = s.fCls := rfl
@[simp] theorem State.raise_fId (s : State) (e : ErrorCause) : (s.raise e).fId = s.fId := rfl
@[simp] theorem State.raise_fLen (s : State) (e : ErrorCause) : (s.raise e).fLen = s.fLen := rfl
@[simp] theorem State.raise_fSrc (s : State) (e : ErrorCause) : (s.raise e).fSrc = s.fSrc := rfl
@[simp] theorem State.raise_phase (s : State) (e : ErrorCause) : (s.raise e).phase = s.phase := rfl
@[simp] theorem State.raise_idx (s : State) (e : ErrorCause) : (s.raise e).idx = s.idx := rfl
@[simp] theorem State.raise_done (s : State) (e : ErrorCause) : (s.raise e).done = s.done := rfl
@[simp] theorem State.raise_txfail (s : State) (e : ErrorCause) : (s.raise e).txfail = s.txfail := rfl
@[simp] theorem State.raise_err (s : State) (e : ErrorCause) : (s.raise e).err = e.code := rfl
@[simp] theorem State.raise_tx (s : State) (e : ErrorCause) : (s.raise e).tx = s.tx := rfl
@[simp] theorem State.raise_env (s : State) (e : ErrorCause) : (s.raise e).env = s.env := rfl

/-! ## `State.latch` -/

@[simp] theorem State.latch_cls (s : State) (c i : Byte) (n : Half) (src : FrameSource) : (s.latch c i n src).cls = s.cls := rfl
@[simp] theorem State.latch_id (s : State) (c i : Byte) (n : Half) (src : FrameSource) : (s.latch c i n src).id = s.id := rfl
@[simp] theorem State.latch_plen (s : State) (c i : Byte) (n : Half) (src : FrameSource) : (s.latch c i n src).plen = s.plen := rfl
@[simp] theorem State.latch_lat (s : State) (c i : Byte) (n : Half) (src : FrameSource) : (s.latch c i n src).lat = s.lat := rfl
@[simp] theorem State.latch_lon (s : State) (c i : Byte) (n : Half) (src : FrameSource) : (s.latch c i n src).lon = s.lon := rfl
@[simp] theorem State.latch_alt (s : State) (c i : Byte) (n : Half) (src : FrameSource) : (s.latch c i n src).alt = s.alt := rfl
@[simp] theorem State.latch_year (s : State) (c i : Byte) (n : Half) (src : FrameSource) : (s.latch c i n src).year = s.year := rfl
@[simp] theorem State.latch_month (s : State) (c i : Byte) (n : Half) (src : FrameSource) : (s.latch c i n src).month = s.month := rfl
@[simp] theorem State.latch_day (s : State) (c i : Byte) (n : Half) (src : FrameSource) : (s.latch c i n src).day = s.day := rfl
@[simp] theorem State.latch_hour (s : State) (c i : Byte) (n : Half) (src : FrameSource) : (s.latch c i n src).hour = s.hour := rfl
@[simp] theorem State.latch_minute (s : State) (c i : Byte) (n : Half) (src : FrameSource) : (s.latch c i n src).minute = s.minute := rfl
@[simp] theorem State.latch_second (s : State) (c i : Byte) (n : Half) (src : FrameSource) : (s.latch c i n src).second = s.second := rfl
@[simp] theorem State.latch_pay (s : State) (c i : Byte) (n : Half) (src : FrameSource) : (s.latch c i n src).pay = s.pay := rfl
@[simp] theorem State.latch_payDraw (s : State) (c i : Byte) (n : Half) (src : FrameSource) : (s.latch c i n src).payDraw = s.payDraw := rfl
@[simp] theorem State.latch_pb (s : State) (c i : Byte) (n : Half) (src : FrameSource) : (s.latch c i n src).pb = s.pb := rfl
@[simp] theorem State.latch_ckA (s : State) (c i : Byte) (n : Half) (src : FrameSource) : (s.latch c i n src).ckA = s.ckA := rfl
@[simp] theorem State.latch_ckB (s : State) (c i : Byte) (n : Half) (src : FrameSource) : (s.latch c i n src).ckB = s.ckB := rfl
@[simp] theorem State.latch_fCls (s : State) (c i : Byte) (n : Half) (src : FrameSource) : (s.latch c i n src).fCls = c := rfl
@[simp] theorem State.latch_fId (s : State) (c i : Byte) (n : Half) (src : FrameSource) : (s.latch c i n src).fId = i := rfl
@[simp] theorem State.latch_fLen (s : State) (c i : Byte) (n : Half) (src : FrameSource) : (s.latch c i n src).fLen = n := rfl
@[simp] theorem State.latch_fSrc (s : State) (c i : Byte) (n : Half) (src : FrameSource) : (s.latch c i n src).fSrc = src := rfl
@[simp] theorem State.latch_phase (s : State) (c i : Byte) (n : Half) (src : FrameSource) : (s.latch c i n src).phase = s.phase := rfl
@[simp] theorem State.latch_idx (s : State) (c i : Byte) (n : Half) (src : FrameSource) : (s.latch c i n src).idx = s.idx := rfl
@[simp] theorem State.latch_done (s : State) (c i : Byte) (n : Half) (src : FrameSource) : (s.latch c i n src).done = s.done := rfl
@[simp] theorem State.latch_txfail (s : State) (c i : Byte) (n : Half) (src : FrameSource) : (s.latch c i n src).txfail = s.txfail := rfl
@[simp] theorem State.latch_err (s : State) (c i : Byte) (n : Half) (src : FrameSource) : (s.latch c i n src).err = s.err := rfl
@[simp] theorem State.latch_tx (s : State) (c i : Byte) (n : Half) (src : FrameSource) : (s.latch c i n src).tx = s.tx := rfl
@[simp] theorem State.latch_env (s : State) (c i : Byte) (n : Half) (src : FrameSource) : (s.latch c i n src).env = s.env := rfl

/-! ## `State.startFrame` -/

@[simp] theorem State.startFrame_cls (s : State) : (s.startFrame).cls = s.cls := rfl
@[simp] theorem State.startFrame_id (s : State) : (s.startFrame).id = s.id := rfl
@[simp] theorem State.startFrame_plen (s : State) : (s.startFrame).plen = s.plen := rfl
@[simp] theorem State.startFrame_lat (s : State) : (s.startFrame).lat = s.lat := rfl
@[simp] theorem State.startFrame_lon (s : State) : (s.startFrame).lon = s.lon := rfl
@[simp] theorem State.startFrame_alt (s : State) : (s.startFrame).alt = s.alt := rfl
@[simp] theorem State.startFrame_year (s : State) : (s.startFrame).year = s.year := rfl
@[simp] theorem State.startFrame_month (s : State) : (s.startFrame).month = s.month := rfl
@[simp] theorem State.startFrame_day (s : State) : (s.startFrame).day = s.day := rfl
@[simp] theorem State.startFrame_hour (s : State) : (s.startFrame).hour = s.hour := rfl
@[simp] theorem State.startFrame_minute (s : State) : (s.startFrame).minute = s.minute := rfl
@[simp] theorem State.startFrame_second (s : State) : (s.startFrame).second = s.second := rfl
@[simp] theorem State.startFrame_pay (s : State) : (s.startFrame).pay = s.pay := rfl
@[simp] theorem State.startFrame_payDraw (s : State) : (s.startFrame).payDraw = s.payDraw := rfl
@[simp] theorem State.startFrame_pb (s : State) : (s.startFrame).pb = s.pb := rfl
@[simp] theorem State.startFrame_ckA (s : State) : (s.startFrame).ckA = 0#8 := rfl
@[simp] theorem State.startFrame_ckB (s : State) : (s.startFrame).ckB = 0#8 := rfl
@[simp] theorem State.startFrame_fCls (s : State) : (s.startFrame).fCls = s.fCls := rfl
@[simp] theorem State.startFrame_fId (s : State) : (s.startFrame).fId = s.fId := rfl
@[simp] theorem State.startFrame_fLen (s : State) : (s.startFrame).fLen = s.fLen := rfl
@[simp] theorem State.startFrame_fSrc (s : State) : (s.startFrame).fSrc = s.fSrc := rfl
@[simp] theorem State.startFrame_phase (s : State) : (s.startFrame).phase = .beginTx := rfl
@[simp] theorem State.startFrame_idx (s : State) : (s.startFrame).idx = 0#16 := rfl
@[simp] theorem State.startFrame_done (s : State) : (s.startFrame).done = false := rfl
@[simp] theorem State.startFrame_txfail (s : State) : (s.startFrame).txfail = false := rfl
@[simp] theorem State.startFrame_err (s : State) : (s.startFrame).err = s.err := rfl
@[simp] theorem State.startFrame_tx (s : State) : (s.startFrame).tx = s.tx := rfl
@[simp] theorem State.startFrame_env (s : State) : (s.startFrame).env = s.env := rfl

/-! ## `State.startAiding` -/

@[simp] theorem State.startAiding_cls (s : State) (B : AidBuffer) : (s.startAiding B).cls = s.cls := rfl
@[simp] theorem State.startAiding_id (s : State) (B : AidBuffer) : (s.startAiding B).id = s.id := rfl
@[simp] theorem State.startAiding_plen (s : State) (B : AidBuffer) : (s.startAiding B).plen = s.plen := rfl
@[simp] theorem State.startAiding_lat (s : State) (B : AidBuffer) : (s.startAiding B).lat = s.lat := rfl
@[simp] theorem State.startAiding_lon (s : State) (B : AidBuffer) : (s.startAiding B).lon = s.lon := rfl
@[simp] theorem State.startAiding_alt (s : State) (B : AidBuffer) : (s.startAiding B).alt = s.alt := rfl
@[simp] theorem State.startAiding_year (s : State) (B : AidBuffer) : (s.startAiding B).year = s.year := rfl
@[simp] theorem State.startAiding_month (s : State) (B : AidBuffer) : (s.startAiding B).month = s.month := rfl
@[simp] theorem State.startAiding_day (s : State) (B : AidBuffer) : (s.startAiding B).day = s.day := rfl
@[simp] theorem State.startAiding_hour (s : State) (B : AidBuffer) : (s.startAiding B).hour = s.hour := rfl
@[simp] theorem State.startAiding_minute (s : State) (B : AidBuffer) : (s.startAiding B).minute = s.minute := rfl
@[simp] theorem State.startAiding_second (s : State) (B : AidBuffer) : (s.startAiding B).second = s.second := rfl
@[simp] theorem State.startAiding_pay (s : State) (B : AidBuffer) : (s.startAiding B).pay = s.pay := rfl
@[simp] theorem State.startAiding_payDraw (s : State) (B : AidBuffer) : (s.startAiding B).payDraw = s.payDraw := rfl
@[simp] theorem State.startAiding_pb (s : State) (B : AidBuffer) : (s.startAiding B).pb = B := rfl
@[simp] theorem State.startAiding_ckA (s : State) (B : AidBuffer) : (s.startAiding B).ckA = 0#8 := rfl
@[simp] theorem State.startAiding_ckB (s : State) (B : AidBuffer) : (s.startAiding B).ckB = 0#8 := rfl
@[simp] theorem State.startAiding_fCls (s : State) (B : AidBuffer) : (s.startAiding B).fCls = Config.aidClass := rfl
@[simp] theorem State.startAiding_fId (s : State) (B : AidBuffer) : (s.startAiding B).fId = Config.aidId := rfl
@[simp] theorem State.startAiding_fLen (s : State) (B : AidBuffer) : (s.startAiding B).fLen = 48#16 := rfl
@[simp] theorem State.startAiding_fSrc (s : State) (B : AidBuffer) : (s.startAiding B).fSrc = .srcPb := rfl
@[simp] theorem State.startAiding_phase (s : State) (B : AidBuffer) : (s.startAiding B).phase = .beginTx := rfl
@[simp] theorem State.startAiding_idx (s : State) (B : AidBuffer) : (s.startAiding B).idx = 0#16 := rfl
@[simp] theorem State.startAiding_done (s : State) (B : AidBuffer) : (s.startAiding B).done = false := rfl
@[simp] theorem State.startAiding_txfail (s : State) (B : AidBuffer) : (s.startAiding B).txfail = false := rfl
@[simp] theorem State.startAiding_err (s : State) (B : AidBuffer) : (s.startAiding B).err = s.err := rfl
@[simp] theorem State.startAiding_tx (s : State) (B : AidBuffer) : (s.startAiding B).tx = s.tx := rfl
@[simp] theorem State.startAiding_env (s : State) (B : AidBuffer) : (s.startAiding B).env = s.env := rfl

/-! ## `State.writePay` -/

@[simp] theorem State.writePay_cls (s : State) (a : Fin 65535) (v : Byte) : (s.writePay a v).cls = s.cls := rfl
@[simp] theorem State.writePay_id (s : State) (a : Fin 65535) (v : Byte) : (s.writePay a v).id = s.id := rfl
@[simp] theorem State.writePay_plen (s : State) (a : Fin 65535) (v : Byte) : (s.writePay a v).plen = s.plen := rfl
@[simp] theorem State.writePay_lat (s : State) (a : Fin 65535) (v : Byte) : (s.writePay a v).lat = s.lat := rfl
@[simp] theorem State.writePay_lon (s : State) (a : Fin 65535) (v : Byte) : (s.writePay a v).lon = s.lon := rfl
@[simp] theorem State.writePay_alt (s : State) (a : Fin 65535) (v : Byte) : (s.writePay a v).alt = s.alt := rfl
@[simp] theorem State.writePay_year (s : State) (a : Fin 65535) (v : Byte) : (s.writePay a v).year = s.year := rfl
@[simp] theorem State.writePay_month (s : State) (a : Fin 65535) (v : Byte) : (s.writePay a v).month = s.month := rfl
@[simp] theorem State.writePay_day (s : State) (a : Fin 65535) (v : Byte) : (s.writePay a v).day = s.day := rfl
@[simp] theorem State.writePay_hour (s : State) (a : Fin 65535) (v : Byte) : (s.writePay a v).hour = s.hour := rfl
@[simp] theorem State.writePay_minute (s : State) (a : Fin 65535) (v : Byte) : (s.writePay a v).minute = s.minute := rfl
@[simp] theorem State.writePay_second (s : State) (a : Fin 65535) (v : Byte) : (s.writePay a v).second = s.second := rfl
@[simp] theorem State.writePay_pay (s : State) (a : Fin 65535) (v : Byte) : (s.writePay a v).pay = Memory.store a.val v s.pay := rfl
@[simp] theorem State.writePay_payDraw (s : State) (a : Fin 65535) (v : Byte) : (s.writePay a v).payDraw = s.payDraw := rfl
@[simp] theorem State.writePay_pb (s : State) (a : Fin 65535) (v : Byte) : (s.writePay a v).pb = s.pb := rfl
@[simp] theorem State.writePay_ckA (s : State) (a : Fin 65535) (v : Byte) : (s.writePay a v).ckA = s.ckA := rfl
@[simp] theorem State.writePay_ckB (s : State) (a : Fin 65535) (v : Byte) : (s.writePay a v).ckB = s.ckB := rfl
@[simp] theorem State.writePay_fCls (s : State) (a : Fin 65535) (v : Byte) : (s.writePay a v).fCls = s.fCls := rfl
@[simp] theorem State.writePay_fId (s : State) (a : Fin 65535) (v : Byte) : (s.writePay a v).fId = s.fId := rfl
@[simp] theorem State.writePay_fLen (s : State) (a : Fin 65535) (v : Byte) : (s.writePay a v).fLen = s.fLen := rfl
@[simp] theorem State.writePay_fSrc (s : State) (a : Fin 65535) (v : Byte) : (s.writePay a v).fSrc = s.fSrc := rfl
@[simp] theorem State.writePay_phase (s : State) (a : Fin 65535) (v : Byte) : (s.writePay a v).phase = s.phase := rfl
@[simp] theorem State.writePay_idx (s : State) (a : Fin 65535) (v : Byte) : (s.writePay a v).idx = s.idx := rfl
@[simp] theorem State.writePay_done (s : State) (a : Fin 65535) (v : Byte) : (s.writePay a v).done = s.done := rfl
@[simp] theorem State.writePay_txfail (s : State) (a : Fin 65535) (v : Byte) : (s.writePay a v).txfail = s.txfail := rfl
@[simp] theorem State.writePay_err (s : State) (a : Fin 65535) (v : Byte) : (s.writePay a v).err = s.err := rfl
@[simp] theorem State.writePay_tx (s : State) (a : Fin 65535) (v : Byte) : (s.writePay a v).tx = s.tx := rfl
@[simp] theorem State.writePay_env (s : State) (a : Fin 65535) (v : Byte) : (s.writePay a v).env = s.env := rfl

/-! ## `State.withTurns` -/

@[simp] theorem State.withTurns_cls (s : State) (l : List Turn) : (s.withTurns l).cls = s.cls := rfl
@[simp] theorem State.withTurns_id (s : State) (l : List Turn) : (s.withTurns l).id = s.id := rfl
@[simp] theorem State.withTurns_plen (s : State) (l : List Turn) : (s.withTurns l).plen = s.plen := rfl
@[simp] theorem State.withTurns_lat (s : State) (l : List Turn) : (s.withTurns l).lat = s.lat := rfl
@[simp] theorem State.withTurns_lon (s : State) (l : List Turn) : (s.withTurns l).lon = s.lon := rfl
@[simp] theorem State.withTurns_alt (s : State) (l : List Turn) : (s.withTurns l).alt = s.alt := rfl
@[simp] theorem State.withTurns_year (s : State) (l : List Turn) : (s.withTurns l).year = s.year := rfl
@[simp] theorem State.withTurns_month (s : State) (l : List Turn) : (s.withTurns l).month = s.month := rfl
@[simp] theorem State.withTurns_day (s : State) (l : List Turn) : (s.withTurns l).day = s.day := rfl
@[simp] theorem State.withTurns_hour (s : State) (l : List Turn) : (s.withTurns l).hour = s.hour := rfl
@[simp] theorem State.withTurns_minute (s : State) (l : List Turn) : (s.withTurns l).minute = s.minute := rfl
@[simp] theorem State.withTurns_second (s : State) (l : List Turn) : (s.withTurns l).second = s.second := rfl
@[simp] theorem State.withTurns_pay (s : State) (l : List Turn) : (s.withTurns l).pay = s.pay := rfl
@[simp] theorem State.withTurns_payDraw (s : State) (l : List Turn) : (s.withTurns l).payDraw = s.payDraw := rfl
@[simp] theorem State.withTurns_pb (s : State) (l : List Turn) : (s.withTurns l).pb = s.pb := rfl
@[simp] theorem State.withTurns_ckA (s : State) (l : List Turn) : (s.withTurns l).ckA = s.ckA := rfl
@[simp] theorem State.withTurns_ckB (s : State) (l : List Turn) : (s.withTurns l).ckB = s.ckB := rfl
@[simp] theorem State.withTurns_fCls (s : State) (l : List Turn) : (s.withTurns l).fCls = s.fCls := rfl
@[simp] theorem State.withTurns_fId (s : State) (l : List Turn) : (s.withTurns l).fId = s.fId := rfl
@[simp] theorem State.withTurns_fLen (s : State) (l : List Turn) : (s.withTurns l).fLen = s.fLen := rfl
@[simp] theorem State.withTurns_fSrc (s : State) (l : List Turn) : (s.withTurns l).fSrc = s.fSrc := rfl
@[simp] theorem State.withTurns_phase (s : State) (l : List Turn) : (s.withTurns l).phase = s.phase := rfl
@[simp] theorem State.withTurns_idx (s : State) (l : List Turn) : (s.withTurns l).idx = s.idx := rfl
@[simp] theorem State.withTurns_done (s : State) (l : List Turn) : (s.withTurns l).done = s.done := rfl
@[simp] theorem State.withTurns_txfail (s : State) (l : List Turn) : (s.withTurns l).txfail = s.txfail := rfl
@[simp] theorem State.withTurns_err (s : State) (l : List Turn) : (s.withTurns l).err = s.err := rfl
@[simp] theorem State.withTurns_tx (s : State) (l : List Turn) : (s.withTurns l).tx = s.tx := rfl
@[simp] theorem State.withTurns_env (s : State) (l : List Turn) : (s.withTurns l).env = { s.env with turns := l } := rfl

/-! ## `State.handHost` -/

@[simp] theorem State.handHost_cls (s : State) (v : HostWord) : (s.handHost v).cls = s.cls := rfl
@[simp] theorem State.handHost_id (s : State) (v : HostWord) : (s.handHost v).id = s.id := rfl
@[simp] theorem State.handHost_plen (s : State) (v : HostWord) : (s.handHost v).plen = s.plen := rfl
@[simp] theorem State.handHost_lat (s : State) (v : HostWord) : (s.handHost v).lat = s.lat := rfl
@[simp] theorem State.handHost_lon (s : State) (v : HostWord) : (s.handHost v).lon = s.lon := rfl
@[simp] theorem State.handHost_alt (s : State) (v : HostWord) : (s.handHost v).alt = s.alt := rfl
@[simp] theorem State.handHost_year (s : State) (v : HostWord) : (s.handHost v).year = s.year := rfl
@[simp] theorem State.handHost_month (s : State) (v : HostWord) : (s.handHost v).month = s.month := rfl
@[simp] theorem State.handHost_day (s : State) (v : HostWord) : (s.handHost v).day = s.day := rfl
@[simp] theorem State.handHost_hour (s : State) (v : HostWord) : (s.handHost v).hour = s.hour := rfl
@[simp] theorem State.handHost_minute (s : State) (v : HostWord) : (s.handHost v).minute = s.minute := rfl
@[simp] theorem State.handHost_second (s : State) (v : HostWord) : (s.handHost v).second = s.second := rfl
@[simp] theorem State.handHost_pay (s : State) (v : HostWord) : (s.handHost v).pay = s.pay := rfl
@[simp] theorem State.handHost_payDraw (s : State) (v : HostWord) : (s.handHost v).payDraw = s.payDraw := rfl
@[simp] theorem State.handHost_pb (s : State) (v : HostWord) : (s.handHost v).pb = s.pb := rfl
@[simp] theorem State.handHost_ckA (s : State) (v : HostWord) : (s.handHost v).ckA = s.ckA := rfl
@[simp] theorem State.handHost_ckB (s : State) (v : HostWord) : (s.handHost v).ckB = s.ckB := rfl
@[simp] theorem State.handHost_fCls (s : State) (v : HostWord) : (s.handHost v).fCls = s.fCls := rfl
@[simp] theorem State.handHost_fId (s : State) (v : HostWord) : (s.handHost v).fId = s.fId := rfl
@[simp] theorem State.handHost_fLen (s : State) (v : HostWord) : (s.handHost v).fLen = s.fLen := rfl
@[simp] theorem State.handHost_fSrc (s : State) (v : HostWord) : (s.handHost v).fSrc = s.fSrc := rfl
@[simp] theorem State.handHost_phase (s : State) (v : HostWord) : (s.handHost v).phase = s.phase := rfl
@[simp] theorem State.handHost_idx (s : State) (v : HostWord) : (s.handHost v).idx = s.idx := rfl
@[simp] theorem State.handHost_done (s : State) (v : HostWord) : (s.handHost v).done = s.done := rfl
@[simp] theorem State.handHost_txfail (s : State) (v : HostWord) : (s.handHost v).txfail = s.txfail := rfl
@[simp] theorem State.handHost_err (s : State) (v : HostWord) : (s.handHost v).err = s.err := rfl
@[simp] theorem State.handHost_tx (s : State) (v : HostWord) : (s.handHost v).tx = s.tx := rfl
@[simp] theorem State.handHost_env (s : State) (v : HostWord) : (s.handHost v).env = { s.env with hostData := some v } := rfl

/-! ## `State.takeAck` and `State.setResult` -/

@[simp] theorem State.takeAck_cls (s : State) : s.takeAck.cls = s.cls := by
  unfold State.takeAck; split <;> rfl
@[simp] theorem State.takeAck_id (s : State) : s.takeAck.id = s.id := by
  unfold State.takeAck; split <;> rfl
@[simp] theorem State.takeAck_plen (s : State) : s.takeAck.plen = s.plen := by
  unfold State.takeAck; split <;> rfl
@[simp] theorem State.takeAck_lat (s : State) : s.takeAck.lat = s.lat := by
  unfold State.takeAck; split <;> rfl
@[simp] theorem State.takeAck_lon (s : State) : s.takeAck.lon = s.lon := by
  unfold State.takeAck; split <;> rfl
@[simp] theorem State.takeAck_alt (s : State) : s.takeAck.alt = s.alt := by
  unfold State.takeAck; split <;> rfl
@[simp] theorem State.takeAck_year (s : State) : s.takeAck.year = s.year := by
  unfold State.takeAck; split <;> rfl
@[simp] theorem State.takeAck_month (s : State) : s.takeAck.month = s.month := by
  unfold State.takeAck; split <;> rfl
@[simp] theorem State.takeAck_day (s : State) : s.takeAck.day = s.day := by
  unfold State.takeAck; split <;> rfl
@[simp] theorem State.takeAck_hour (s : State) : s.takeAck.hour = s.hour := by
  unfold State.takeAck; split <;> rfl
@[simp] theorem State.takeAck_minute (s : State) : s.takeAck.minute = s.minute := by
  unfold State.takeAck; split <;> rfl
@[simp] theorem State.takeAck_second (s : State) : s.takeAck.second = s.second := by
  unfold State.takeAck; split <;> rfl
@[simp] theorem State.takeAck_pay (s : State) : s.takeAck.pay = s.pay := by
  unfold State.takeAck; split <;> rfl
@[simp] theorem State.takeAck_payDraw (s : State) : s.takeAck.payDraw = s.payDraw := by
  unfold State.takeAck; split <;> rfl
@[simp] theorem State.takeAck_pb (s : State) : s.takeAck.pb = s.pb := by
  unfold State.takeAck; split <;> rfl
@[simp] theorem State.takeAck_ckA (s : State) : s.takeAck.ckA = s.ckA := by
  unfold State.takeAck; split <;> rfl
@[simp] theorem State.takeAck_ckB (s : State) : s.takeAck.ckB = s.ckB := by
  unfold State.takeAck; split <;> rfl
@[simp] theorem State.takeAck_fCls (s : State) : s.takeAck.fCls = s.fCls := by
  unfold State.takeAck; split <;> rfl
@[simp] theorem State.takeAck_fId (s : State) : s.takeAck.fId = s.fId := by
  unfold State.takeAck; split <;> rfl
@[simp] theorem State.takeAck_fLen (s : State) : s.takeAck.fLen = s.fLen := by
  unfold State.takeAck; split <;> rfl
@[simp] theorem State.takeAck_fSrc (s : State) : s.takeAck.fSrc = s.fSrc := by
  unfold State.takeAck; split <;> rfl
@[simp] theorem State.takeAck_phase (s : State) : s.takeAck.phase = s.phase := by
  unfold State.takeAck; split <;> rfl
@[simp] theorem State.takeAck_idx (s : State) : s.takeAck.idx = s.idx := by
  unfold State.takeAck; split <;> rfl
@[simp] theorem State.takeAck_done (s : State) : s.takeAck.done = s.done := by
  unfold State.takeAck; split <;> rfl
@[simp] theorem State.takeAck_txfail (s : State) : s.takeAck.txfail = s.txfail := by
  unfold State.takeAck; split <;> rfl
@[simp] theorem State.takeAck_err (s : State) : s.takeAck.err = s.err := by
  unfold State.takeAck; split <;> rfl
@[simp] theorem State.takeAck_tx (s : State) : s.takeAck.tx = s.tx := by
  unfold State.takeAck; split <;> rfl

@[simp] theorem State.setResult_cls (s : State) (r : SinkAnswer) : (s.setResult r).cls = s.cls := by
  cases r <;> rfl
@[simp] theorem State.setResult_id (s : State) (r : SinkAnswer) : (s.setResult r).id = s.id := by
  cases r <;> rfl
@[simp] theorem State.setResult_plen (s : State) (r : SinkAnswer) : (s.setResult r).plen = s.plen := by
  cases r <;> rfl
@[simp] theorem State.setResult_lat (s : State) (r : SinkAnswer) : (s.setResult r).lat = s.lat := by
  cases r <;> rfl
@[simp] theorem State.setResult_lon (s : State) (r : SinkAnswer) : (s.setResult r).lon = s.lon := by
  cases r <;> rfl
@[simp] theorem State.setResult_alt (s : State) (r : SinkAnswer) : (s.setResult r).alt = s.alt := by
  cases r <;> rfl
@[simp] theorem State.setResult_year (s : State) (r : SinkAnswer) : (s.setResult r).year = s.year := by
  cases r <;> rfl
@[simp] theorem State.setResult_month (s : State) (r : SinkAnswer) : (s.setResult r).month = s.month := by
  cases r <;> rfl
@[simp] theorem State.setResult_day (s : State) (r : SinkAnswer) : (s.setResult r).day = s.day := by
  cases r <;> rfl
@[simp] theorem State.setResult_hour (s : State) (r : SinkAnswer) : (s.setResult r).hour = s.hour := by
  cases r <;> rfl
@[simp] theorem State.setResult_minute (s : State) (r : SinkAnswer) : (s.setResult r).minute = s.minute := by
  cases r <;> rfl
@[simp] theorem State.setResult_second (s : State) (r : SinkAnswer) : (s.setResult r).second = s.second := by
  cases r <;> rfl
@[simp] theorem State.setResult_pay (s : State) (r : SinkAnswer) : (s.setResult r).pay = s.pay := by
  cases r <;> rfl
@[simp] theorem State.setResult_payDraw (s : State) (r : SinkAnswer) : (s.setResult r).payDraw = s.payDraw := by
  cases r <;> rfl
@[simp] theorem State.setResult_pb (s : State) (r : SinkAnswer) : (s.setResult r).pb = s.pb := by
  cases r <;> rfl
@[simp] theorem State.setResult_ckA (s : State) (r : SinkAnswer) : (s.setResult r).ckA = s.ckA := by
  cases r <;> rfl
@[simp] theorem State.setResult_ckB (s : State) (r : SinkAnswer) : (s.setResult r).ckB = s.ckB := by
  cases r <;> rfl
@[simp] theorem State.setResult_fCls (s : State) (r : SinkAnswer) : (s.setResult r).fCls = s.fCls := by
  cases r <;> rfl
@[simp] theorem State.setResult_fId (s : State) (r : SinkAnswer) : (s.setResult r).fId = s.fId := by
  cases r <;> rfl
@[simp] theorem State.setResult_fLen (s : State) (r : SinkAnswer) : (s.setResult r).fLen = s.fLen := by
  cases r <;> rfl
@[simp] theorem State.setResult_fSrc (s : State) (r : SinkAnswer) : (s.setResult r).fSrc = s.fSrc := by
  cases r <;> rfl
@[simp] theorem State.setResult_phase (s : State) (r : SinkAnswer) : (s.setResult r).phase = s.phase := by
  cases r <;> rfl
@[simp] theorem State.setResult_idx (s : State) (r : SinkAnswer) : (s.setResult r).idx = s.idx := by
  cases r <;> rfl
@[simp] theorem State.setResult_done (s : State) (r : SinkAnswer) :
    (s.setResult r).done = (s.done || decide (r = .ackOk)) := by cases r <;> simp [State.setResult]
@[simp] theorem State.setResult_txfail (s : State) (r : SinkAnswer) :
    (s.setResult r).txfail = (s.txfail || decide (r = .ackFail)) := by cases r <;> simp [State.setResult]
@[simp] theorem State.setResult_err (s : State) (r : SinkAnswer) : (s.setResult r).err = s.err := by
  cases r <;> rfl
@[simp] theorem State.setResult_tx (s : State) (r : SinkAnswer) : (s.setResult r).tx = s.tx := by
  cases r <;> rfl
@[simp] theorem State.setResult_env (s : State) (r : SinkAnswer) : (s.setResult r).env = s.env := by
  cases r <;> rfl

/-! ## `State.resetStep` -/

@[simp] theorem State.resetStep_cls (s : State) : s.resetStep.cls = 0#8 := rfl
@[simp] theorem State.resetStep_id (s : State) : s.resetStep.id = 0#8 := rfl
@[simp] theorem State.resetStep_plen (s : State) : s.resetStep.plen = 0#32 := rfl
@[simp] theorem State.resetStep_lat (s : State) : s.resetStep.lat = 0#64 := rfl
@[simp] theorem State.resetStep_lon (s : State) : s.resetStep.lon = 0#64 := rfl
@[simp] theorem State.resetStep_alt (s : State) : s.resetStep.alt = 0#64 := rfl
@[simp] theorem State.resetStep_year (s : State) : s.resetStep.year = 0#16 := rfl
@[simp] theorem State.resetStep_month (s : State) : s.resetStep.month = 0#8 := rfl
@[simp] theorem State.resetStep_day (s : State) : s.resetStep.day = 0#8 := rfl
@[simp] theorem State.resetStep_hour (s : State) : s.resetStep.hour = 0#8 := rfl
@[simp] theorem State.resetStep_minute (s : State) : s.resetStep.minute = 0#8 := rfl
@[simp] theorem State.resetStep_second (s : State) : s.resetStep.second = 0#8 := rfl
@[simp] theorem State.resetStep_pay (s : State) : s.resetStep.pay = [] := rfl
@[simp] theorem State.resetStep_payDraw (s : State) : s.resetStep.payDraw = s.payDraw + 1 := rfl
@[simp] theorem State.resetStep_pb (s : State) : s.resetStep.pb = Vector.replicate 48 0#8 := rfl
@[simp] theorem State.resetStep_ckA (s : State) : s.resetStep.ckA = 0#8 := rfl
@[simp] theorem State.resetStep_ckB (s : State) : s.resetStep.ckB = 0#8 := rfl
@[simp] theorem State.resetStep_fCls (s : State) : s.resetStep.fCls = 0#8 := rfl
@[simp] theorem State.resetStep_fId (s : State) : s.resetStep.fId = 0#8 := rfl
@[simp] theorem State.resetStep_fLen (s : State) : s.resetStep.fLen = 0#16 := rfl
@[simp] theorem State.resetStep_fSrc (s : State) : s.resetStep.fSrc = .srcPay := rfl
@[simp] theorem State.resetStep_phase (s : State) : s.resetStep.phase = .idle := rfl
@[simp] theorem State.resetStep_idx (s : State) : s.resetStep.idx = 0#16 := rfl
@[simp] theorem State.resetStep_done (s : State) : s.resetStep.done = false := rfl
@[simp] theorem State.resetStep_txfail (s : State) : s.resetStep.txfail = false := rfl
@[simp] theorem State.resetStep_err (s : State) : s.resetStep.err = 0#3 := rfl
@[simp] theorem State.resetStep_tx (s : State) : s.resetStep.tx = if s.phase.txOpen then s.tx ++ [.abort] else s.tx := rfl
@[simp] theorem State.resetStep_env (s : State) : s.resetStep.env = s.env := rfl

/-! ## The turns of the environment -/

@[simp] theorem State.withTurns_withTurns (s : State) (l m : List Turn) :
    (s.withTurns l).withTurns m = s.withTurns m := rfl
@[simp] theorem State.withTurns_self (s : State) : s.withTurns s.env.turns = s := rfl

end Sys2Proof.Machine
end

