-- ==== Sys2Proof/Laws/Frame.lean ====
section
/-! SUPPORT. Byte lists: the checksum as a fold, the lengths and the bytes of a frame, the payload of the latched frame. -/

namespace Sys2Proof.Machine

/-! ## The checksum -/

@[simp] theorem cksum_nil : cksum [] = (0#8, 0#8) := rfl

/-- One more byte is one more accumulation (R82, R83). -/
theorem cksum_append_singleton (l : List Byte) (b : Byte) : cksum (l ++ [b]) = ckPair (cksum l) b := by
  simp [cksum]

/-- `CkUpd` on accumulators that hold a checksum gives the checksum of the longer list. -/
theorem State.emitSummed_cksum (s : State) (b : Byte) {l : List Byte} (h : (s.ckA, s.ckB) = cksum l) :
    ((s.emitSummed b).ckA, (s.emitSummed b).ckB) = cksum (l ++ [b]) := by
  rw [cksum_append_singleton, ← h]
  simp

/-! ## The header and the frame -/

@[simp] theorem frameHeader_eq (c i : Byte) (n : Half) :
    frameHeader c i n = [c, i, n.extractLsb' 0 8, n.extractLsb' 8 8] := rfl

/-- The frame's bytes, spelt out at both ends (R60). -/
theorem frameBytes_eq (c i : Byte) (n : Half) (p : List Byte) :
    frameBytes c i n p =
      Config.sync1 :: Config.sync2 :: c :: i :: n.extractLsb' 0 8 :: n.extractLsb' 8 8 ::
        (p ++ [(cksum (frameHeader c i n ++ p)).1, (cksum (frameHeader c i n ++ p)).2]) := by
  simp [frameBytes]

/-- A frame has eight bytes beside its payload (R61). -/
@[simp] theorem frameBytes_length (c i : Byte) (n : Half) (p : List Byte) :
    (frameBytes c i n p).length = 8 + p.length := by
  simp [frameBytes_eq]; omega

/-- Payload byte `k` stands at position `6 + k` (R60). -/
theorem frameBytes_payload (c i : Byte) (n : Half) {p : List Byte} {k : Nat} (h : k < p.length) :
    (frameBytes c i n p)[6 + k]? = p[k]? := by
  rw [frameBytes_eq, show 6 + k = k + 1 + 1 + 1 + 1 + 1 + 1 from by omega]
  simp [List.getElem?_append_left h]

/-- The first checksum byte stands after the payload (R60). -/
theorem frameBytes_ckA (c i : Byte) (n : Half) (p : List Byte) :
    (frameBytes c i n p)[6 + p.length]? = some (cksum (frameHeader c i n ++ p)).1 := by
  rw [frameBytes_eq, show 6 + p.length = p.length + 1 + 1 + 1 + 1 + 1 + 1 from by omega]
  simp

/-- The second checksum byte is the frame's last (R60). -/
theorem frameBytes_ckB (c i : Byte) (n : Half) (p : List Byte) :
    (frameBytes c i n p)[7 + p.length]? = some (cksum (frameHeader c i n ++ p)).2 := by
  rw [frameBytes_eq, show 7 + p.length = p.length + 1 + 1 + 1 + 1 + 1 + 1 + 1 from by omega]
  simp

/-! ## The payload of the latched frame -/

/-- Every index below the latched length has a byte in the payload source (R113). -/
theorem State.psrc_isSome {s : State} (h : s.fSrc = .srcPb → s.fLen.toNat = 48) {k : Nat}
    (hk : k < s.fLen.toNat) : ∃ b, s.psrc k = some b := by
  unfold State.psrc
  split
  · have : k < Config.payCap := by
      have := s.fLen.isLt
      simp only [Config.payCap]; omega
    simp [this]
  · rename_i hs
    have : k < 48 := by rw [h hs] at hk; exact hk
    simp [this]

/-- A list all of whose elements map to a value keeps its length and order under `filterMap`. -/
theorem filterMap_range_eq {α : Type} (f : Nat → Option α) (n : Nat) (h : ∀ k < n, ∃ b, f k = some b) :
    ((List.range n).filterMap f).length = n ∧ ∀ k < n, ((List.range n).filterMap f)[k]? = f k := by
  induction n with
  | zero => simp
  | succ n ih =>
    obtain ⟨hl, hg⟩ := ih fun k hk => h k (by omega)
    obtain ⟨b, hb⟩ := h n (by omega)
    rw [List.range_succ, List.filterMap_append]
    refine ⟨by simp [hl, hb], fun k hk => ?_⟩
    rcases Nat.lt_or_ge k n with hkn | hkn
    · rw [List.getElem?_append_left (by omega), hg k hkn]
    · have : k = n := by omega
      subst this
      rw [List.getElem?_append_right (by omega)]
      simp [hl, hb]

/-- The payload of the latched frame has the latched length (R115). -/
theorem State.payload_length {s : State} (h : s.fSrc = .srcPb → s.fLen.toNat = 48) :
    s.payload.length = s.fLen.toNat :=
  (filterMap_range_eq s.psrc s.fLen.toNat fun _ hk => State.psrc_isSome h hk).1

/-- Byte `k` of the payload is what the source holds at `k` (R115). -/
theorem State.payload_getElem? {s : State} (h : s.fSrc = .srcPb → s.fLen.toNat = 48) {k : Nat}
    (hk : k < s.fLen.toNat) : s.payload[k]? = s.psrc k :=
  (filterMap_range_eq s.psrc s.fLen.toNat fun _ hk => State.psrc_isSome h hk).2 k hk

/-- What the payload of a frame depends on. -/
theorem State.payload_congr {s t : State} (h1 : t.fLen = s.fLen) (h2 : t.fSrc = s.fSrc) (h3 : t.pay = s.pay)
    (h4 : t.payDraw = s.payDraw) (h5 : t.pb = s.pb) : t.payload = s.payload := by
  unfold State.payload
  have : t.psrc = s.psrc := by
    funext k
    simp [State.psrc, State.payByte, h2, h3, h4, h5]
  rw [h1, this]

/-- The payload read from PAY, byte by byte. -/
theorem State.payload_of_srcPay {s : State} (h : s.fSrc = .srcPay) :
    s.payload = (List.range s.fLen.toNat).map s.payByte := by
  unfold State.payload
  rw [← List.filterMap_eq_map]
  apply List.filterMap_congr
  intro k hk
  have h1 := List.mem_range.1 hk
  have h2 := s.fLen.isLt
  have h3 : k < Config.payCap := by simp only [Config.payCap]; omega
  simp [State.psrc, h, h3]

/-- The payload of an aiding frame just started is the buffer it was started with (R139). -/
theorem State.payload_startAiding (s : State) (B : AidBuffer) : (s.startAiding B).payload = B.toList := by
  have hs : (s.startAiding B).fSrc = .srcPb → (s.startAiding B).fLen.toNat = 48 := fun _ => rfl
  apply List.ext_getElem?
  intro k
  rcases Nat.lt_or_ge k 48 with hk | hk
  · rw [State.payload_getElem? hs hk]
    show B[k]? = _
    simp
  · rw [List.getElem?_eq_none (by rw [State.payload_length hs]; exact hk),
      List.getElem?_eq_none (by simpa using hk)]

/-- One more element taken from a list. -/
theorem take_succ_of_getElem? {α : Type} {l : List α} {k : Nat} {x : α} (h : l[k]? = some x) :
    l.take (k + 1) = l.take k ++ [x] := by
  rw [List.take_add_one, h]; rfl

end Sys2Proof.Machine
end

