-- ==== Sys2Proof/Laws/Memory.lean ====
section
/-! SUPPORT. The payload memory: read after write, other addresses unchanged, the canonical form kept. -/

namespace Sys2Proof.Machine

@[simp] theorem Memory.lookup_nil (a : Nat) : Memory.lookup a [] = none := rfl

/-- A read of the address just stored to gives the stored byte. -/
@[simp] theorem Memory.lookup_store_self (a : Nat) (v : Byte) (m : Memory) :
    Memory.lookup a (Memory.store a v m) = some v := by
  induction m with
  | nil => simp [Memory.store, Memory.lookup]
  | cons c m ih =>
    unfold Memory.store
    split
    · simp [Memory.lookup]
    · split <;> simp_all [Memory.lookup]

/-- A store leaves every other address alone. -/
theorem Memory.lookup_store_of_ne {a b : Nat} (h : b ≠ a) (v : Byte) (m : Memory) :
    Memory.lookup b (Memory.store a v m) = Memory.lookup b m := by
  have h' : ¬a = b := fun e => h e.symm
  induction m with
  | nil => simp [Memory.store, Memory.lookup, h']
  | cons c m ih =>
    unfold Memory.store
    split
    · simp [Memory.lookup, h']
    · split
      · rename_i hc
        subst hc
        simp [Memory.lookup, h']
      · simp only [Memory.lookup, ih]

/-- Storing above `lo` into a memory that rises above `lo`. -/
theorem Memory.risesAbove_store {lo a : Nat} (h : lo < a) (v : Byte) {m : Memory}
    (hm : Memory.risesAbove lo m = true) : Memory.risesAbove lo (Memory.store a v m) = true := by
  induction m generalizing lo with
  | nil => simp [Memory.store, Memory.risesAbove, h]
  | cons c m ih =>
    simp only [Memory.risesAbove, Bool.and_eq_true, decide_eq_true_eq] at hm
    unfold Memory.store
    split
    · simp [Memory.risesAbove, *]
    · split
      · simp_all [Memory.risesAbove]
      · have : c.1 < a := by omega
        simp [Memory.risesAbove, hm.1, ih this hm.2]

/-- A list that rises above `lo` and lies in PAY is canonical. -/
theorem Memory.wf_iff (m : Memory) :
    Memory.wf m = true ↔
      (match m with | [] => True | c :: m => Memory.risesAbove c.1 m = true) ∧ ∀ x ∈ m, x.1 < Config.payCap := by
  cases m with
  | nil => simp [Memory.wf]
  | cons c m => simp [Memory.wf, List.all_eq_true]

theorem Memory.mem_store {a : Nat} {v : Byte} {m : Memory} {x : Host.Cell} (h : x ∈ Memory.store a v m) :
    x = (a, v) ∨ x ∈ m := by
  induction m with
  | nil => simpa [Memory.store] using h
  | cons c m ih =>
    unfold Memory.store at h
    split at h
    · simpa using h
    · split at h
      · rcases List.mem_cons.1 h with h | h
        · exact .inl h
        · exact .inr (List.mem_cons_of_mem _ h)
      · rcases List.mem_cons.1 h with h | h
        · exact .inr (by simp [h])
        · exact (ih h).imp id (List.mem_cons_of_mem _)

/-- Every store to an address of PAY keeps the canonical form. -/
theorem Memory.wf_store {a : Nat} (h : a < Config.payCap) (v : Byte) {m : Memory} (hm : Memory.wf m = true) :
    Memory.wf (Memory.store a v m) = true := by
  rw [Memory.wf_iff] at hm ⊢
  refine ⟨?_, fun x hx => ?_⟩
  · cases m with
    | nil => simp [Memory.store, Memory.risesAbove]
    | cons c m =>
      unfold Memory.store
      by_cases h1 : a < c.1
      · simp [h1, Memory.risesAbove, hm.1]
      · by_cases h2 : c.1 = a
        · subst h2
          simpa [h1] using hm.1
        · have : c.1 < a := by omega
          simpa [h1, h2] using Memory.risesAbove_store this v hm.1
  · rcases Memory.mem_store hx with rfl | hx
    · exact h
    · exact hm.2 x hx

/-- An address at or below the bound of a rising list is not listed. -/
theorem Memory.lookup_none_of_risesAbove {lo a : Nat} (h : a ≤ lo) {m : Memory}
    (hm : Memory.risesAbove lo m = true) : Memory.lookup a m = none := by
  induction m generalizing lo with
  | nil => rfl
  | cons c m ih =>
    simp only [Memory.risesAbove, Bool.and_eq_true, decide_eq_true_eq] at hm
    have hc : c.1 ≠ a := by omega
    simpa [Memory.lookup, hc] using ih (by omega) hm.2

/-- The canonical form decides: memories that rise above a common bound and have the same written bytes are the same
data. -/
theorem Memory.eq_of_risesAbove {lo : Nat} {m m' : Memory} (hm : Memory.risesAbove lo m = true)
    (hm' : Memory.risesAbove lo m' = true) (h : ∀ a, Memory.lookup a m = Memory.lookup a m') : m = m' := by
  induction m generalizing lo m' with
  | nil =>
    cases m' with
    | nil => rfl
    | cons c m' => simpa [Memory.lookup] using h c.1
  | cons c m ih =>
    cases m' with
    | nil => simpa [Memory.lookup] using h c.1
    | cons c' m' =>
      simp only [Memory.risesAbove, Bool.and_eq_true, decide_eq_true_eq] at hm hm'
      have key : ∀ x, Memory.lookup x m = Memory.lookup x m' ∨ x = c.1 ∨ x = c'.1 := by
        intro x
        by_cases h1 : c.1 = x
        · exact .inr (.inl h1.symm)
        · by_cases h2 : c'.1 = x
          · exact .inr (.inr h2.symm)
          · left; simpa [Memory.lookup, h1, h2] using h x
      have hc : c.1 = c'.1 := by
        rcases Nat.lt_trichotomy c.1 c'.1 with hl | hl | hl
        · have h1 := h c.1
          rw [Memory.lookup, if_pos rfl, Memory.lookup, if_neg (by omega),
            Memory.lookup_none_of_risesAbove (Nat.le_of_lt hl) hm'.2] at h1
          cases h1
        · exact hl
        · have h1 := h c'.1
          rw [Memory.lookup, if_neg (by omega), Memory.lookup, if_pos rfl,
            Memory.lookup_none_of_risesAbove (Nat.le_of_lt hl) hm.2] at h1
          cases h1
      have hv : c = c' := by
        have h1 := h c.1
        simp only [Memory.lookup, hc, if_true] at h1
        exact Prod.ext hc (Option.some.inj h1)
      subst hv
      rw [ih hm.2 hm'.2 fun x => ?_]
      rcases Nat.lt_or_ge c.1 x with hx | hx
      · rcases key x with h1 | h1 | h1
        · exact h1
        · omega
        · omega
      · rw [Memory.lookup_none_of_risesAbove hx hm.2, Memory.lookup_none_of_risesAbove hx hm'.2]

/-- Canonical memories with the same written bytes are the same data. -/
theorem Memory.eq_of_lookup {m m' : Memory} (hm : Memory.wf m = true) (hm' : Memory.wf m' = true)
    (h : ∀ a, Memory.lookup a m = Memory.lookup a m') : m = m' := by
  rw [Memory.wf_iff] at hm hm'
  cases m with
  | nil =>
    cases m' with
    | nil => rfl
    | cons c m' => simpa [Memory.lookup] using h c.1
  | cons c m =>
    cases m' with
    | nil => simpa [Memory.lookup] using h c.1
    | cons c' m' =>
      rcases Nat.lt_trichotomy c.1 c'.1 with hl | hl | hl
      · have h1 := h c.1
        rw [Memory.lookup, if_pos rfl, Memory.lookup, if_neg (by omega),
          Memory.lookup_none_of_risesAbove (Nat.le_of_lt hl) hm'.1] at h1
        cases h1
      · have hv : c = c' := by
          have h1 := h c.1
          simp only [Memory.lookup, hl, if_true] at h1
          exact Prod.ext hl (Option.some.inj h1)
        subst hv
        congr 1
        refine Memory.eq_of_risesAbove hm.1 hm'.1 fun x => ?_
        by_cases hx : c.1 = x
        · subst hx
          rw [Memory.lookup_none_of_risesAbove (Nat.le_refl _) hm.1,
            Memory.lookup_none_of_risesAbove (Nat.le_refl _) hm'.1]
        · simpa [Memory.lookup, hx] using h x
      · have h1 := h c'.1
        rw [Memory.lookup, if_neg (by omega), Memory.lookup, if_pos rfl,
          Memory.lookup_none_of_risesAbove (Nat.le_of_lt hl) hm.1] at h1
        cases h1

/-- The host reads back what it wrote (R103). -/
@[simp] theorem State.payByte_writePay_self (s : State) (a : Fin 65535) (v : Byte) :
    (s.writePay a v).payByte a.val = v := by
  simp [State.payByte]

/-- The host's write of one byte of PAY leaves every other byte as it was (R103). -/
theorem State.payByte_writePay_of_ne (s : State) (a : Fin 65535) (v : Byte) {b : Nat} (h : b ≠ a.val) :
    (s.writePay a v).payByte b = s.payByte b := by
  simp [State.payByte, Memory.lookup_store_of_ne h]

/-- The write of one byte keeps PAY canonical. -/
theorem State.writePay_wf (s : State) (a : Fin 65535) (v : Byte) (h : Memory.wf s.pay = true) :
    Memory.wf (s.writePay a v).pay = true :=
  Memory.wf_store a.isLt v h

end Sys2Proof.Machine
end

