-- ==== Sys2Proof/Laws/Host.lean ====
section
/-! SUPPORT. The write gate, the errors, the commands and the host's accesses: one lemma each for what they can do. -/

namespace Sys2Proof.Machine

/-! ## The write gate (R101, R167) -/

/-- A frozen FENC ignores the write (R166). -/
theorem State.gate_frozen {s : State} (h : s.err ≠ 0#3) (f : State → State) : s.gate f = s := by
  simp [State.gate, h]

/-- A busy FENC refuses the write with `Overlap` (R165). -/
theorem State.gate_busy {s : State} (h : s.err = 0#3) (hp : s.phase ≠ .idle) (f : State → State) :
    s.gate f = s.raise .overlap := by
  simp [State.gate, h, hp]

/-- A ready FENC performs the write (R101). -/
theorem State.gate_ready {s : State} (h : s.err = 0#3) (hp : s.phase = .idle) (f : State → State) : s.gate f = f s := by
  simp [State.gate, h, hp]

/-- Everything the gate can do. -/
theorem State.gate_cases (s : State) (f : State → State) :
    (s.err ≠ 0#3 ∧ s.gate f = s) ∨ (s.err = 0#3 ∧ s.phase ≠ .idle ∧ s.gate f = s.raise .overlap) ∨
      (s.err = 0#3 ∧ s.phase = .idle ∧ s.gate f = f s) := by
  by_cases h : s.err = 0
  · by_cases hp : s.phase = .idle
    · exact .inr (.inr ⟨h, hp, State.gate_ready h hp f⟩)
    · exact .inr (.inl ⟨h, hp, State.gate_busy h hp f⟩)
  · exact .inl ⟨h, State.gate_frozen h f⟩

/-! ## The commands -/

/-- Everything a performed ENCODE can do (R105). -/
theorem State.encodeCommand_cases (s : State) :
    (65535 < s.plen.toNat ∧ s.encodeCommand = s.raise .lenRange) ∨
      (s.plen.toNat ≤ 65535 ∧
        s.encodeCommand = (s.latch s.cls s.id (s.plen.extractLsb' 0 16) .srcPay).startFrame) := by
  unfold State.encodeCommand
  rcases Nat.lt_or_ge 65535 s.plen.toNat with h | h
  · exact .inl ⟨h, if_pos h⟩
  · exact .inr ⟨h, if_neg (Nat.not_lt.2 h)⟩

/-- Everything a performed AIDSEND can do (R139). -/
theorem State.aidsendCommand_cases (s : State) :
    (s.aidOperands = none ∧ s.aidsendCommand = s.raise .aidRange) ∨
      (∃ x, s.aidOperands = some x ∧ s.aidsendCommand = s.startAiding (pack x)) := by
  unfold State.aidsendCommand
  cases h : s.aidOperands with
  | none => exact .inl ⟨rfl, rfl⟩
  | some x => exact .inr ⟨x, rfl, rfl⟩

/-- A latched length is the requested one when that fits (R105). -/
theorem latched_length {v : Word} (h : v.toNat ≤ 65535) : (v.extractLsb' 0 16).toNat = v.toNat := by
  simp [BitVec.extractLsb'_toNat]; omega

/-- The aiding operands exist exactly when all three coordinates scale (R139, R162). -/
theorem State.aidOperands_eq_some {s : State} {la lo al : Int} (h1 : scale s.lat Config.latLonScale = some la)
    (h2 : scale s.lon Config.latLonScale = some lo) (h3 : scale s.alt Config.altScale = some al) :
    s.aidOperands = some ⟨Config.aidMask, la, lo, al, s.year, s.month, s.day, s.hour, s.minute, s.second⟩ := by
  simp [State.aidOperands, h1, h2, h3]

theorem State.aidOperands_eq_none {s : State} (h : scale s.lat Config.latLonScale = none ∨
    scale s.lon Config.latLonScale = none ∨ scale s.alt Config.altScale = none) : s.aidOperands = none := by
  unfold State.aidOperands
  split
  · simp_all
  · rfl

/-! ## Decoding a command word -/

/-- Everything the decoder can answer (R66, R67). -/
theorem decode_cases (v : Byte) :
    (v = 0x01#8 ∧ decode v = .command .encode) ∨ (v = 0x02#8 ∧ decode v = .command .aidsend) ∨
      (v ≠ 0x01#8 ∧ v ≠ 0x02#8 ∧ decode v = .illegal v) := by
  revert v; decide

/-- Everything a write of CMD can do (R101, R104). -/
theorem commandWrite_cases (v : Byte) (s : State) :
    (v = 0x01#8 ∧ commandWrite v s = .next (s.gate State.encodeCommand)) ∨
      (v = 0x02#8 ∧ commandWrite v s = .next (s.gate State.aidsendCommand)) ∨
      (v ≠ 0x01#8 ∧ v ≠ 0x02#8 ∧ commandWrite v s = .next (s.gate fun t => t.raise .illegalCmd)) := by
  unfold commandWrite
  rcases decode_cases v with ⟨h, e⟩ | ⟨h, e⟩ | ⟨h, h', e⟩
  · exact .inl ⟨h, by rw [e]; rfl⟩
  · exact .inr (.inl ⟨h, by rw [e]; rfl⟩)
  · exact .inr (.inr ⟨h, h', by rw [e]⟩)

/-- A host write always answers a next state: the gate around what the write performs (R101). -/
theorem hostWrite_cases (w : HostWrite) (s : State) :
    (∃ v, w = .cmd v ∧ v = 0x01#8 ∧ hostWrite w s = .next (s.gate State.encodeCommand)) ∨
      (∃ v, w = .cmd v ∧ v = 0x02#8 ∧ hostWrite w s = .next (s.gate State.aidsendCommand)) ∨
      (∃ v, w = .cmd v ∧ v ≠ 0x01#8 ∧ v ≠ 0x02#8 ∧ hostWrite w s = .next (s.gate fun t => t.raise .illegalCmd)) ∨
      (∃ x, w = .reg x ∧ hostWrite w s = .next (s.gate fun t => t.writeReg x)) ∨
      (∃ a v, w = .pay a v ∧ hostWrite w s = .next (s.gate fun t => t.writePay a v)) := by
  cases w with
  | cmd v =>
    rcases commandWrite_cases v s with ⟨h, e⟩ | ⟨h, e⟩ | ⟨h, h', e⟩
    · exact .inl ⟨v, rfl, h, e⟩
    · exact .inr (.inl ⟨v, rfl, h, e⟩)
    · exact .inr (.inr (.inl ⟨v, rfl, h, h', e⟩))
  | reg x => exact .inr (.inr (.inr (.inl ⟨x, rfl, rfl⟩)))
  | pay a v => exact .inr (.inr (.inr (.inr ⟨a, v, rfl, rfl⟩)))

/-- While FENC is frozen or busy a host write changes at most ERR (R165, R166). -/
theorem hostWrite_not_ready {s : State} (h : s.err ≠ 0#3 ∨ s.phase ≠ .idle) (w : HostWrite) :
    hostWrite w s = .next (if s.err = 0#3 then s.raise .overlap else s) := by
  have key : ∀ f : State → State, s.gate f = if s.err = 0#3 then s.raise .overlap else s := by
    intro f
    rcases State.gate_cases s f with ⟨h1, e⟩ | ⟨h1, h2, e⟩ | ⟨h1, h2, _⟩
    · simp [h1, e]
    · simp [h1, e]
    · exact absurd h (by simp [h1, h2])
  rcases hostWrite_cases w s with ⟨_, _, _, e⟩ | ⟨_, _, _, e⟩ | ⟨_, _, _, _, e⟩ | ⟨_, _, e⟩ | ⟨_, _, _, e⟩ <;>
    rw [e, key]

end Sys2Proof.Machine
end

