-- ==== Sys2Proof/Laws/Packer.lean ====
section
/-! SUPPORT. The field stores of the packer as updates of a byte list (42_aiding_packer R134 to R136). -/

namespace Sys2Proof.Machine

/-- `Put8` sets one element of the buffer's byte list (R134). -/
theorem put8_toList (B : AidBuffer) (o : Nat) (v : Byte) (h : o < 48) :
    (put8 B o v h).toList = B.toList.set o v :=
  Vector.toList_set h

/-- `Put16LE` sets two (R135). -/
theorem put16le_toList (B : AidBuffer) (o : Nat) (v : Half) (h : o + 1 < 48) :
    (put16le B o v h).toList = (B.toList.set o (v.extractLsb' 0 8)).set (o + 1) (v.extractLsb' 8 8) := by
  simp only [put16le, put8_toList]

/-- `Put32LE` sets four (R136). -/
theorem put32le_toList (B : AidBuffer) (o : Nat) (n : Int) (h : o + 3 < 48) :
    (put32le B o n h).toList =
      (((B.toList.set o ((u32 n).extractLsb' 0 8)).set (o + 1) ((u32 n).extractLsb' 8 8)).set
        (o + 2) ((u32 n).extractLsb' 16 8)).set (o + 3) ((u32 n).extractLsb' 24 8) := by
  simp only [put32le, put8_toList]

/-- A byte of the buffer after `Put8` (R134). -/
theorem put8_getElem (B : AidBuffer) (o : Nat) (j : Fin 48) (v : Byte) (h : o < 48) :
    (put8 B o v h)[j] = if j.val = o then v else B[j] := by
  simp only [put8, Fin.getElem_fin, Vector.getElem_set]
  by_cases e : o = j.val <;> simp [e, eq_comm]

/-- The image of a signed value is the value modulo 2^32 (30_encoding R65). -/
theorem u32_toNat (n : Int) : ((u32 n).toNat : Int) = n % 2 ^ 32 := by
  rw [u32, BitVec.toNat_ofInt]
  have : 0 ≤ n % 2 ^ 32 := Int.emod_nonneg n (by decide)
  simpa using this

end Sys2Proof.Machine
end

