-- ==== Sys2Proof/Laws/PerInstr.lean ====
section
/-! SUPPORT. A fact about every command as syntax: its word is the one of its row of the opcode map. -/

namespace Sys2Proof.Laws

/-- The command's word is covered by exactly one row of the opcode map, the row that names the command, and its code is
one of the legal values of CMD (30_encoding R66, 10_state R13). -/
def OpcodeRow.Statement (i : Instr) : Prop :=
  opcodeMap.filter (fun r => r.covers (encode i)) = [⟨0xFF#8, encode i, i⟩] ∧ legalCommand (encode i) = true

theorem OpcodeRow.encode : OpcodeRow.Statement .encode := by unfold OpcodeRow.Statement; decide

theorem OpcodeRow.aidsend : OpcodeRow.Statement .aidsend := by unfold OpcodeRow.Statement; decide

end Sys2Proof.Laws
end

