-- ==== Sys2Proof/Laws/Scale.lean ====
section
/-! SUPPORT. Scaling: what `scale` can answer, and the arithmetic of rounding to a 53-bit significand
(42_aiding_packer R132). -/

namespace Sys2Proof.Machine

/-- Everything a successful `Scale` went through (R132). -/
theorem scale_some {w : Double} {k : Nat} {n : Int} (h : scale w k = some n) :
    ∃ neg sig ex p, Binary64.ofPattern w = .finite neg sig ex ∧ rn64 (sig * k) ex = some p ∧
      n = roundHalfAway neg p.1 p.2 ∧ fitsI32 n = true := by
  unfold scale at h
  split at h
  · cases h
  · cases h
  · split at h
    · cases h
    · split at h
      · cases h; exact ⟨_, _, _, _, by assumption, by assumption, rfl, by assumption⟩
      · cases h

/-- Nothing is rounded where nothing is cut off. -/
@[simp] theorem roundHalfEven_zero (m : Nat) : roundHalfEven m 0 = m := by
  simp [roundHalfEven, Nat.mod_one]

/-- The rounded value is within half a unit, and even where it is exactly half a unit away. -/
theorem roundHalfEven_spec (m d : Nat) :
    2 * m ≤ 2 * (roundHalfEven m d * 2 ^ d) + 2 ^ d ∧ 2 * (roundHalfEven m d * 2 ^ d) ≤ 2 * m + 2 ^ d ∧
    ((2 * m = 2 * (roundHalfEven m d * 2 ^ d) + 2 ^ d ∨ 2 * (roundHalfEven m d * 2 ^ d) = 2 * m + 2 ^ d) →
      roundHalfEven m d % 2 = 0) := by
  have h1 := Nat.div_add_mod m (2 ^ d)
  have hp : 0 < 2 ^ d := Nat.two_pow_pos d
  have h2 := Nat.mod_lt m hp
  unfold roundHalfEven
  generalize m / 2 ^ d = q at *
  generalize m % 2 ^ d = r at *
  generalize 2 ^ d = P at *
  split
  · have : q * P = P * q := Nat.mul_comm _ _
    exact ⟨by omega, by omega, fun h => by omega⟩
  · split
    · have : (q + 1) * P = P * q + P := by ring
      exact ⟨by omega, by omega, fun h => by omega⟩
    · rcases Nat.mod_two_eq_zero_or_one q with e | e
      · rw [e, Nat.add_zero]
        have : q * P = P * q := Nat.mul_comm _ _
        exact ⟨by omega, by omega, fun _ => e⟩
      · rw [e]
        have : (q + 1) * P = P * q + P := by ring
        exact ⟨by omega, by omega, fun h => by omega⟩

/-- Where bits are cut off, the kept part has exactly 53 bits. -/
theorem excessBits_bounds {m : Nat} (h : 0 < excessBits m) :
    2 ^ 52 * 2 ^ excessBits m ≤ m ∧ m < 2 ^ 53 * 2 ^ excessBits m := by
  have hm : m ≠ 0 := by rintro rfl; simp [excessBits] at h
  have h1 := Nat.log2_self_le hm
  have h2 := Nat.lt_log2_self (n := m)
  unfold excessBits at *
  rw [← pow_add, ← pow_add, show 52 + (m.log2 + 1 - 53) = m.log2 from by omega,
    show 53 + (m.log2 + 1 - 53) = m.log2 + 1 from by omega]
  exact ⟨h1, h2⟩

/-- Where nothing is cut off, the value is a 53-bit significand already. -/
theorem lt_of_excessBits_zero {m : Nat} (h : excessBits m = 0) : m < 2 ^ 53 := by
  have h2 := Nat.lt_log2_self (n := m)
  unfold excessBits at h
  exact lt_of_lt_of_le h2 (Nat.pow_le_pow_right (by norm_num) (by omega))

/-- A rounded significand has at most 53 bits, or is 2^53. -/
theorem significand_le (m : Nat) : roundHalfEven m (excessBits m) ≤ 2 ^ 53 := by
  rcases Nat.eq_zero_or_pos (excessBits m) with h | h
  · rw [h, roundHalfEven_zero]; exact le_of_lt (lt_of_excessBits_zero h)
  · have hb := (excessBits_bounds h).2
    have hs := (roundHalfEven_spec m (excessBits m)).2.1
    by_contra hc
    have h1 : 2 ^ 53 + 1 ≤ roundHalfEven m (excessBits m) := by omega
    have h2 := Nat.mul_le_mul_right (2 ^ excessBits m) h1
    have hp : 0 < 2 ^ excessBits m := Nat.two_pow_pos _
    rw [Nat.add_mul] at h2
    omega

/-- A significand that was rounded is normalised. -/
theorem le_significand {m : Nat} (h : 0 < excessBits m) : 2 ^ 52 ≤ roundHalfEven m (excessBits m) := by
  have hb := (excessBits_bounds h).1
  have hs := (roundHalfEven_spec m (excessBits m)).1
  by_contra hc
  have h1 : roundHalfEven m (excessBits m) + 1 ≤ 2 ^ 52 := by omega
  have h2 := Nat.mul_le_mul_right (2 ^ excessBits m) h1
  have hp : 0 < 2 ^ excessBits m := Nat.two_pow_pos _
  rw [Nat.add_mul] at h2
  omega

/-- A magnitude's size in terms of the top bit of its significand. -/
theorem log2_add_lt_iff (q x n : Nat) (hn : x < n ∨ 0 < q) : Nat.log2 q + x < n ↔ q * 2 ^ x < 2 ^ n := by
  rcases Nat.eq_zero_or_pos q with rfl | hq
  · simp; omega
  · constructor
    · intro h
      calc q * 2 ^ x < 2 ^ (q.log2 + 1) * 2 ^ x :=
            Nat.mul_lt_mul_of_pos_right Nat.lt_log2_self (Nat.two_pow_pos _)
        _ = 2 ^ (q.log2 + 1 + x) := by rw [← pow_add]
        _ ≤ 2 ^ n := Nat.pow_le_pow_right (by norm_num) (by omega)
    · intro h
      have h1 : 2 ^ q.log2 * 2 ^ x ≤ q * 2 ^ x := Nat.mul_le_mul_right _ (Nat.log2_self_le (by omega))
      rw [← pow_add] at h1
      exact (Nat.pow_lt_pow_iff_right (by norm_num)).1 (lt_of_le_of_lt h1 h)

/-- Everything `RN64` can answer (R132). -/
theorem rn64_cases (m e : Nat) :
    (rn64 m e = none ∧ roundHalfEven m (excessBits m) ≠ 0 ∧
        2098 ≤ Nat.log2 (roundHalfEven m (excessBits m)) + (e + excessBits m)) ∨
      (rn64 m e = some (roundHalfEven m (excessBits m), e + excessBits m) ∧
        ¬(roundHalfEven m (excessBits m) ≠ 0 ∧
          2098 ≤ Nat.log2 (roundHalfEven m (excessBits m)) + (e + excessBits m))) := by
  unfold rn64
  simp only
  split
  · exact .inl ⟨rfl, ‹_›⟩
  · exact .inr ⟨rfl, ‹_›⟩

end Sys2Proof.Machine
end

