-- ==== Sys2Proof/Laws/Sequencer.lean ====
section
/-! SUPPORT. What one step of the sequencer can do to a frame in flight, said once (41_frame_encoder R112 to R115). -/

namespace Sys2Proof.Machine

/-- What no step of the sequencer changes: the operand registers, PAY, PB, the frame registers and ERR (R112). -/
structure State.SameFrame (s t : State) : Prop where
  operandRegs : t.operandRegs = s.operandRegs
  pay : t.pay = s.pay
  payDraw : t.payDraw = s.payDraw
  pb : t.pb = s.pb
  frameRegs : t.frameRegs = s.frameRegs
  err : t.err = s.err

theorem State.SameFrame.refl (s : State) : s.SameFrame s := ⟨rfl, rfl, rfl, rfl, rfl, rfl⟩

theorem State.SameFrame.trans {s t u : State} (h : s.SameFrame t) (h' : t.SameFrame u) : s.SameFrame u :=
  ⟨h'.1.trans h.1, h'.2.trans h.2, h'.3.trans h.3, h'.4.trans h.4, h'.5.trans h.5, h'.6.trans h.6⟩

theorem State.SameFrame.fLen {s t : State} (h : s.SameFrame t) : t.fLen = s.fLen :=
  congrArg FrameRegs.fLen h.frameRegs

theorem State.SameFrame.fSrc {s t : State} (h : s.SameFrame t) : t.fSrc = s.fSrc :=
  congrArg FrameRegs.fSrc h.frameRegs

theorem State.SameFrame.payload {s t : State} (h : s.SameFrame t) : t.payload = s.payload :=
  State.payload_congr h.fLen h.fSrc h.pay h.payDraw h.pb

theorem State.SameFrame.header {s t : State} (h : s.SameFrame t) : t.header = s.header := by
  have h1 : t.fCls = s.fCls := congrArg FrameRegs.fCls h.frameRegs
  have h2 : t.fId = s.fId := congrArg FrameRegs.fId h.frameRegs
  simp only [State.header, h1, h2, h.fLen]

theorem State.SameFrame.frameNow {s t : State} (h : s.SameFrame t) : t.frameNow = s.frameNow := by
  have h1 : t.fCls = s.fCls := congrArg FrameRegs.fCls h.frameRegs
  have h2 : t.fId = s.fId := congrArg FrameRegs.fId h.frameRegs
  simp only [State.frameNow, h1, h2, h.fLen, h.payload]

/-- A frame is in flight and TX was `tx0` when it was accepted: its open transaction stands after `tx0`, and the
accumulators hold the checksum of what has been emitted (10_state R25). -/
structure State.InFlight (tx0 : List SinkEvent) (s : State) : Prop where
  busy : s.phase ≠ .idle
  idxBelow : s.phase = .payload → s.idx.toNat < s.fLen.toNat
  idxZero : s.phase ≠ .payload → s.idx = 0#16
  srcLen : s.fSrc = .srcPb → s.fLen.toNat = 48
  noResult : s.done = false ∧ s.txfail = false
  txPart : s.tx = tx0 ++ s.openEvents
  checksum : (s.ckA, s.ckB) = cksum s.summed

/-- A frame just accepted is in flight. -/
theorem State.inFlight_of_beginTx {s : State} (hp : s.phase = .beginTx) (hi : s.idx = 0#16)
    (hs : s.fSrc = .srcPb → s.fLen.toNat = 48) (hr : s.done = false ∧ s.txfail = false)
    (hck : (s.ckA, s.ckB) = (0#8, 0#8)) : s.InFlight s.tx where
  busy := by simp [hp]
  idxBelow := by simp [hp]
  idxZero := fun _ => hi
  srcLen := hs
  noResult := hr
  txPart := by simp [State.openEvents, hp, Phase.txOpen]
  checksum := by simp [State.summed, hp, hck]

/-- One more frame byte handed to the sink extends the open transaction. -/
theorem State.openEvents_data {s t : State} {b : Byte} (same : s.SameFrame t) (hs : s.phase.txOpen = true)
    (ht : t.phase.txOpen = true) (he : t.emitted = s.emitted + 1) (hb : s.frameNow[s.emitted]? = some b) :
    t.openEvents = s.openEvents ++ [.data b] := by
  simp [State.openEvents, hs, ht, he, same.frameNow, take_succ_of_getElem? hb]

/-- The end of a frame's flight: TX has gained the whole transaction, the result flags tell the sink's answer, the
accumulators hold the frame's checksum (R114, R115). -/
structure State.Landed (tx0 : List SinkEvent) (s t : State) : Prop where
  idle : t.phase = .idle
  tx : t.tx = tx0 ++ transaction s.frameNow s.sinkAck
  done : t.done = decide (s.sinkAck = .ackOk)
  txfail : t.txfail = decide (s.sinkAck = .ackFail)
  checksum : (t.ckA, t.ckB) = cksum (s.header ++ s.payload)

theorem State.frameNow_length {s : State} (h : s.fSrc = .srcPb → s.fLen.toNat = 48) :
    s.frameNow.length = 8 + s.fLen.toNat := by
  simp [State.frameNow, State.payload_length h]

/-- A step in a phase that hands the sink a byte and is not the last of its run. -/
theorem State.InFlight.ofData {tx0 : List SinkEvent} {s t : State} {b : Byte} (h : s.InFlight tx0)
    (same : s.SameFrame t) (hs : s.phase.txOpen = true) (ht : t.phase.txOpen = true)
    (he : t.emitted = s.emitted + 1) (hb : s.frameNow[s.emitted]? = some b) (htx : t.tx = s.tx ++ [.data b])
    (hd : t.done = s.done ∧ t.txfail = s.txfail)
    (hi : t.phase = .payload → t.idx.toNat < t.fLen.toNat) (hz : t.phase ≠ .payload → t.idx = 0#16)
    (hck : (t.ckA, t.ckB) = cksum t.summed) : t.InFlight tx0 where
  busy := by intro e; simp [e, Phase.txOpen] at ht
  idxBelow := hi
  idxZero := hz
  srcLen := fun e => by rw [same.fLen]; exact h.srcLen (same.fSrc ▸ e)
  noResult := by rw [hd.1, hd.2]; exact h.noResult
  txPart := by rw [htx, h.txPart, State.openEvents_data same hs ht he hb, List.append_assoc]
  checksum := hck

/-- Everything a sequencer step can do to a frame in flight: it never stops, changes none of the frame's data and
leaves the turns alone; either the frame goes on, one step nearer its end and with the sink's next answer untouched,
or this was its last step and it has landed. -/
theorem seqStep_inFlight {tx0 : List SinkEvent} {s : State} (h : s.InFlight tx0) :
    ∃ t, seqStep s = .next t ∧ s.SameFrame t ∧ t.env.turns = s.env.turns ∧ t.env.hostData = s.env.hostData ∧
      ((t.InFlight tx0 ∧ t.stepsLeft + 1 = s.stepsLeft ∧ t.env = s.env) ∨
        (s.stepsLeft = 1 ∧ State.Landed tx0 s t)) := by
  have hlen := State.payload_length h.srcLen
  cases hp : s.phase with
  | idle => exact absurd hp h.busy
  | beginTx =>
    have hz := h.idxZero (by simp [hp])
    refine ⟨{ s.emit (.beginTx Config.sinkAddr) with phase := .sync1 }, by simp [seqStep, hp],
      ⟨rfl, rfl, rfl, rfl, rfl, rfl⟩, rfl, rfl, .inl ⟨⟨by simp, by simp, fun _ => hz, h.srcLen, h.noResult, ?_, ?_⟩,
        by simp [State.stepsLeft, hp], rfl⟩⟩
    · have := h.txPart
      simp [State.openEvents, hp, Phase.txOpen] at this
      simp [State.openEvents, Phase.txOpen, State.emitted, this]
    · have := h.checksum
      simpa [State.summed, hp] using this
  | sync1 =>
    have hz := h.idxZero (by simp [hp])
    refine ⟨{ s.emit (.data Config.sync1) with phase := .sync2 }, by simp [seqStep, hp],
      ⟨rfl, rfl, rfl, rfl, rfl, rfl⟩, rfl, rfl, .inl ⟨h.ofData ⟨rfl, rfl, rfl, rfl, rfl, rfl⟩ (by simp [hp, Phase.txOpen]) rfl
        (by simp [State.emitted, hp]) (b := Config.sync1) ?_ rfl ⟨rfl, rfl⟩ (by simp) (fun _ => hz) ?_,
        by simp [State.stepsLeft, hp], rfl⟩⟩
    · simp [State.emitted, hp, State.frameNow, frameBytes_eq]
    · have := h.checksum
      simpa [State.summed, hp] using this
  | sync2 =>
    have hz := h.idxZero (by simp [hp])
    refine ⟨{ s.emit (.data Config.sync2) with phase := .cls }, by simp [seqStep, hp],
      ⟨rfl, rfl, rfl, rfl, rfl, rfl⟩, rfl, rfl, .inl ⟨h.ofData ⟨rfl, rfl, rfl, rfl, rfl, rfl⟩ (by simp [hp, Phase.txOpen]) rfl
        (by simp [State.emitted, hp]) (b := Config.sync2) ?_ rfl ⟨rfl, rfl⟩ (by simp) (fun _ => hz) ?_,
        by simp [State.stepsLeft, hp], rfl⟩⟩
    · simp [State.emitted, hp, State.frameNow, frameBytes_eq]
    · have := h.checksum
      simpa [State.summed, hp] using this
  | cls =>
    have hz := h.idxZero (by simp [hp])
    refine ⟨{ s.emitSummed s.fCls with phase := .idf }, by simp [seqStep, hp],
      ⟨rfl, rfl, rfl, rfl, rfl, rfl⟩, rfl, rfl, .inl ⟨h.ofData ⟨rfl, rfl, rfl, rfl, rfl, rfl⟩ (by simp [hp, Phase.txOpen]) rfl
        (by simp [State.emitted, hp]) (b := s.fCls) ?_ rfl ⟨rfl, rfl⟩ (by simp) (fun _ => hz) ?_,
        by simp [State.stepsLeft, hp], rfl⟩⟩
    · simp [State.emitted, hp, State.frameNow, frameBytes_eq]
    · exact s.emitSummed_cksum s.fCls (l := []) (by simpa [State.summed, hp] using h.checksum)
  | idf =>
    have hz := h.idxZero (by simp [hp])
    refine ⟨{ s.emitSummed s.fId with phase := .lenLo }, by simp [seqStep, hp],
      ⟨rfl, rfl, rfl, rfl, rfl, rfl⟩, rfl, rfl, .inl ⟨h.ofData ⟨rfl, rfl, rfl, rfl, rfl, rfl⟩ (by simp [hp, Phase.txOpen]) rfl
        (by simp [State.emitted, hp]) (b := s.fId) ?_ rfl ⟨rfl, rfl⟩ (by simp) (fun _ => hz) ?_,
        by simp [State.stepsLeft, hp], rfl⟩⟩
    · simp [State.emitted, hp, State.frameNow, frameBytes_eq]
    · exact s.emitSummed_cksum s.fId (l := [s.fCls]) (by simpa [State.summed, State.header, hp] using h.checksum)
  | lenLo =>
    have hz := h.idxZero (by simp [hp])
    refine ⟨{ s.emitSummed (s.fLen.extractLsb' 0 8) with phase := .lenHi }, by simp [seqStep, hp],
      ⟨rfl, rfl, rfl, rfl, rfl, rfl⟩, rfl, rfl, .inl ⟨h.ofData ⟨rfl, rfl, rfl, rfl, rfl, rfl⟩ (by simp [hp, Phase.txOpen]) rfl
        (by simp [State.emitted, hp]) (b := s.fLen.extractLsb' 0 8) ?_ rfl ⟨rfl, rfl⟩ (by simp) (fun _ => hz) ?_,
        by simp [State.stepsLeft, hp], rfl⟩⟩
    · simp [State.emitted, hp, State.frameNow, frameBytes_eq]
    · exact s.emitSummed_cksum _ (l := [s.fCls, s.fId]) (by simpa [State.summed, State.header, hp] using h.checksum)
  | lenHi =>
    have hck := s.emitSummed_cksum (s.fLen.extractLsb' 8 8) (l := [s.fCls, s.fId, s.fLen.extractLsb' 0 8])
      (by simpa [State.summed, State.header, hp] using h.checksum)
    have hfr : s.frameNow[s.emitted]? = some (s.fLen.extractLsb' 8 8) := by
      simp [State.emitted, hp, State.frameNow, frameBytes_eq]
    by_cases hn : s.fLen = 0#16
    · have h0 : s.payload = [] := List.eq_nil_of_length_eq_zero (by simp [hlen, hn])
      refine ⟨{ s.emitSummed (s.fLen.extractLsb' 8 8) with idx := 0#16, phase := .ckA }, by simp [seqStep, hp, hn],
        ⟨rfl, rfl, rfl, rfl, rfl, rfl⟩, rfl, rfl, .inl ⟨h.ofData ⟨rfl, rfl, rfl, rfl, rfl, rfl⟩ (by simp [hp, Phase.txOpen]) rfl
          (by simp [State.emitted, hp, hn]) hfr rfl ⟨rfl, rfl⟩ (by simp) (fun _ => rfl) ?_,
          by simp [State.stepsLeft, hp, hn], rfl⟩⟩
      refine hck.trans (congrArg cksum ?_)
      rw [show ([s.fCls, s.fId, s.fLen.extractLsb' 0 8] ++ [s.fLen.extractLsb' 8 8]) = s.header ++ s.payload from by
        rw [h0]; rfl]
      rfl
    · have hpos : 0 < s.fLen.toNat := by
        rcases Nat.eq_zero_or_pos s.fLen.toNat with e | e
        · exact absurd (BitVec.eq_of_toNat_eq (by simpa using e)) hn
        · exact e
      refine ⟨{ s.emitSummed (s.fLen.extractLsb' 8 8) with idx := 0#16, phase := .payload }, by simp [seqStep, hp, hn],
        ⟨rfl, rfl, rfl, rfl, rfl, rfl⟩, rfl, rfl, .inl ⟨h.ofData ⟨rfl, rfl, rfl, rfl, rfl, rfl⟩ (by simp [hp, Phase.txOpen]) rfl
          (by simp [State.emitted, hp]) hfr rfl ⟨rfl, rfl⟩ (fun _ => hpos) (by simp) ?_,
          by simp [State.stepsLeft, hp], rfl⟩⟩
      simpa [State.summed, State.header] using hck
  | payload =>
    have hlt := h.idxBelow hp
    obtain ⟨b, hb⟩ := State.psrc_isSome h.srcLen hlt
    have hget : s.payload[s.idx.toNat]? = some b := by rw [State.payload_getElem? h.srcLen hlt, hb]
    have hck := s.emitSummed_cksum b (l := s.header ++ s.payload.take s.idx.toNat)
      (by simpa [State.summed, hp] using h.checksum)
    rw [List.append_assoc, ← take_succ_of_getElem? hget] at hck
    have hfr : s.frameNow[s.emitted]? = some b := by
      simp only [State.emitted, hp, State.frameNow]
      rw [frameBytes_payload _ _ _ (by omega), hget]
    have hnat : (s.idx + 1#16).toNat = s.idx.toNat + 1 := by
      have := s.fLen.isLt
      rw [BitVec.toNat_add]; simp; omega
    by_cases hn : s.idx + 1#16 = s.fLen
    · have hn' : s.idx.toNat + 1 = s.fLen.toNat := by rw [← hn, hnat]
      refine ⟨{ s.emitSummed b with idx := 0#16, phase := .ckA }, by simp [seqStep, hp, State.payloadStep, hb, hn],
        ⟨rfl, rfl, rfl, rfl, rfl, rfl⟩, rfl, rfl, .inl ⟨h.ofData ⟨rfl, rfl, rfl, rfl, rfl, rfl⟩ (by simp [hp, Phase.txOpen]) rfl
          (by simp [State.emitted, hp]; omega) hfr rfl ⟨rfl, rfl⟩ (by simp) (fun _ => rfl) ?_,
          by simp [State.stepsLeft, hp]; omega, rfl⟩⟩
      rw [hn', ← hlen, List.take_length] at hck
      exact hck
    · have hn' : s.idx.toNat + 1 ≠ s.fLen.toNat := fun e =>
        hn (BitVec.eq_of_toNat_eq (by rw [hnat, e]))
      refine ⟨{ s.emitSummed b with idx := s.idx + 1#16 }, by simp [seqStep, hp, State.payloadStep, hb, hn],
        ⟨rfl, rfl, rfl, rfl, rfl, rfl⟩, rfl, rfl, .inl ⟨h.ofData ⟨rfl, rfl, rfl, rfl, rfl, rfl⟩ (by simp [hp, Phase.txOpen])
          (by simp [hp, Phase.txOpen])
          (by simp only [State.emitted, State.emitSummed_phase, hp, hnat]; omega) hfr rfl ⟨rfl, rfl⟩
          (fun _ => by simp only [hnat, State.emitSummed_fLen]; omega) (by simp [hp]) ?_,
          by simp only [State.stepsLeft, State.emitSummed_phase, hp, hnat, State.emitSummed_fLen]; omega, rfl⟩⟩
      rw [show State.summed { s.emitSummed b with idx := s.idx + 1#16 } =
        s.header ++ s.payload.take (s.idx.toNat + 1) from by
          simp only [State.summed, State.emitSummed_phase, hp, hnat]; rfl]
      exact hck
  | ckA =>
    have hz := h.idxZero (by simp [hp])
    have hck : (s.ckA, s.ckB) = cksum (s.header ++ s.payload) := by simpa [State.summed, hp] using h.checksum
    refine ⟨{ s.emit (.data s.ckA) with phase := .ckB }, by simp [seqStep, hp],
      ⟨rfl, rfl, rfl, rfl, rfl, rfl⟩, rfl, rfl, .inl ⟨h.ofData ⟨rfl, rfl, rfl, rfl, rfl, rfl⟩ (by simp [hp, Phase.txOpen]) rfl
        (by simp [State.emitted, hp]; omega) (b := s.ckA) ?_ rfl ⟨rfl, rfl⟩ (by simp) (fun _ => hz) hck,
        by simp [State.stepsLeft, hp], rfl⟩⟩
    simp only [State.emitted, hp, State.frameNow, ← hlen]
    rw [frameBytes_ckA]
    exact congrArg (fun x => some x.1) hck.symm
  | ckB =>
    have hz := h.idxZero (by simp [hp])
    have hck : (s.ckA, s.ckB) = cksum (s.header ++ s.payload) := by simpa [State.summed, hp] using h.checksum
    refine ⟨{ s.emit (.data s.ckB) with phase := .endTx }, by simp [seqStep, hp],
      ⟨rfl, rfl, rfl, rfl, rfl, rfl⟩, rfl, rfl, .inl ⟨h.ofData ⟨rfl, rfl, rfl, rfl, rfl, rfl⟩ (by simp [hp, Phase.txOpen]) rfl
        (by simp [State.emitted, hp]; omega) (b := s.ckB) ?_ rfl ⟨rfl, rfl⟩ (by simp) (fun _ => hz) hck,
        by simp [State.stepsLeft, hp], rfl⟩⟩
    simp only [State.emitted, hp, State.frameNow, ← hlen]
    rw [frameBytes_ckB]
    exact congrArg (fun x => some x.2) hck.symm
  | endTx =>
    have hck : (s.ckA, s.ckB) = cksum (s.header ++ s.payload) := by simpa [State.summed, hp] using h.checksum
    have hfull : s.frameNow.take (8 + s.fLen.toNat) = s.frameNow := by
      rw [← State.frameNow_length h.srcLen, List.take_length]
    refine ⟨s.endStep, by simp [seqStep, hp],
      ⟨by simp [State.operandRegs, State.endStep], by simp [State.endStep], by simp [State.endStep],
        by simp [State.endStep], by simp [State.frameRegs, State.endStep], by simp [State.endStep]⟩, ?_, ?_,
      .inr ⟨by simp [State.stepsLeft, hp], rfl, ?_, ?_, ?_, ?_⟩⟩
    · simp only [State.endStep, State.setResult_env, State.emit_env, State.takeAck]; split <;> rfl
    · simp only [State.endStep, State.setResult_env, State.emit_env, State.takeAck]; split <;> rfl
    · simp [State.endStep, h.txPart, State.openEvents, hp, Phase.txOpen, State.emitted, hfull, transaction]
    · simp [State.endStep, h.noResult.1]
    · simp [State.endStep, h.noResult.2]
    · simpa [State.endStep] using hck

end Sys2Proof.Machine
end

