-- ==== Sys2Proof/Laws/Step.lean ====
section
/-! SUPPORT. One step of the machine by whose turn it is, and what the agents' steps can change. -/

namespace Sys2Proof.Machine

/-! ## The step, turn by turn -/

theorem step_no_turn {s : State} (h : s.env.turns = []) : step s = seqStep s := by
  simp [step, agentStep, h]

theorem step_host_turn {s : State} {a : HostAccess} {rest : List Turn} (h : s.env.turns = .host a :: rest) :
    step s = hostStep a (s.withTurns rest) := by
  simp [step, agentStep, h]

theorem step_sequencer_turn {s : State} {rest : List Turn} (h : s.env.turns = .sequencer :: rest) :
    step s = seqStep (s.withTurns rest) := by
  simp [step, agentStep, h]

theorem step_reset_turn {s : State} {rest : List Turn} (h : s.env.turns = .reset :: rest) :
    step s = .next (s.withTurns rest).resetStep := by
  simp [step, agentStep, h]

theorem step_wait_busy {s : State} {rest : List Turn} (h : s.env.turns = .wait :: rest) (hp : s.phase ≠ .idle) :
    step s = seqStep s := by
  simp [step, agentStep, h, State.busy, hp]

theorem step_wait_idle {s : State} {rest : List Turn} (h : s.env.turns = .wait :: rest) (hp : s.phase = .idle) :
    step s = .next ((s.withTurns rest).handHost (.byte s.status)) := by
  simp only [step, agentStep, h, State.busy, hp]
  rfl

/-- Whose step a step is: everything a step can be. -/
theorem step_cases (s : State) :
    (s.env.turns = [] ∧ step s = seqStep s) ∨
      (∃ rest, s.env.turns = .sequencer :: rest ∧ step s = seqStep (s.withTurns rest)) ∨
      (∃ rest, s.env.turns = .wait :: rest ∧ s.phase ≠ .idle ∧ step s = seqStep s) ∨
      (∃ rest, s.env.turns = .wait :: rest ∧ s.phase = .idle ∧
        step s = .next ((s.withTurns rest).handHost (.byte s.status))) ∨
      (∃ r rest, s.env.turns = .host (.read r) :: rest ∧
        step s = .next ((s.withTurns rest).handHost (hostRead r (s.withTurns rest)))) ∨
      (∃ w rest, s.env.turns = .host (.write w) :: rest ∧ step s = hostWrite w (s.withTurns rest)) ∨
      (∃ rest, s.env.turns = .reset :: rest ∧ step s = .next (s.withTurns rest).resetStep) := by
  cases h : s.env.turns with
  | nil => exact .inl ⟨rfl, step_no_turn h⟩
  | cons x rest =>
    cases x with
    | sequencer => exact .inr (.inl ⟨rest, rfl, step_sequencer_turn h⟩)
    | wait =>
      by_cases hp : s.phase = .idle
      · exact .inr (.inr (.inr (.inl ⟨rest, rfl, hp, step_wait_idle h hp⟩)))
      · exact .inr (.inr (.inl ⟨rest, rfl, hp, step_wait_busy h hp⟩))
    | host a =>
      cases a with
      | read r => exact .inr (.inr (.inr (.inr (.inl ⟨r, rest, rfl, step_host_turn h⟩))))
      | write w => exact .inr (.inr (.inr (.inr (.inr (.inl ⟨w, rest, rfl, step_host_turn h⟩)))))
    | reset => exact .inr (.inr (.inr (.inr (.inr (.inr ⟨rest, rfl, step_reset_turn h⟩)))))

/-! ## The sequencer's step in any state -/

/-- Whatever the state, a sequencer step changes no data of the frame, no operand, not ERR and no turn. -/
theorem seqStep_sameFrame {s t : State} (h : seqStep s = .next t) :
    s.SameFrame t ∧ t.env.turns = s.env.turns ∧ t.env.hostData = s.env.hostData := by
  unfold seqStep at h
  split at h
  case h_9 =>
    unfold State.payloadStep at h
    split at h
    · cases h
    · split at h <;> cases h <;> exact ⟨⟨rfl, rfl, rfl, rfl, rfl, rfl⟩, rfl, rfl⟩
  case h_12 =>
    cases h
    refine ⟨⟨by simp [State.operandRegs, State.endStep], by simp [State.endStep], by simp [State.endStep],
      by simp [State.endStep], by simp [State.frameRegs, State.endStep], by simp [State.endStep]⟩, ?_, ?_⟩ <;>
      simp only [State.endStep, State.setResult_env, State.emit_env, State.takeAck] <;> split <;> rfl
  all_goals cases h; exact ⟨⟨rfl, rfl, rfl, rfl, rfl, rfl⟩, rfl, rfl⟩

/-- A sequencer step appends at most one event. -/
theorem seqStep_tx {s t : State} (h : seqStep s = .next t) : t.tx = s.tx ∨ ∃ ev, t.tx = s.tx ++ [ev] := by
  unfold seqStep at h
  split at h
  case h_1 => cases h; exact .inl rfl
  case h_9 =>
    unfold State.payloadStep at h
    split at h
    · cases h
    · split at h <;> cases h <;> exact .inr ⟨_, rfl⟩
  case h_12 => cases h; exact .inr ⟨.endTx s.sinkAck, by simp [State.endStep]⟩
  all_goals cases h; exact .inr ⟨_, rfl⟩

/-- In phase IDLE the sequencer has no step (R112). -/
theorem seqStep_idle {s : State} (h : s.phase = .idle) : seqStep s = .next s := by
  simp [seqStep, h]

/-! ## Runs -/

theorem runSteps_succ {k : Nat} {s t : State} (h : step s = .next t) : runSteps (k + 1) s = runSteps k t := by
  simp [runSteps, h]

theorem runSteps_add {j k : Nat} {s t : State} (h : runSteps j s = .next t) :
    runSteps (j + k) s = runSteps k t := by
  induction j generalizing s with
  | zero => simp only [runSteps] at h; cases h; simp
  | succ j ih =>
    rw [show j + 1 + k = (j + k) + 1 from by omega]
    cases hs : step s with
    | next u => rw [runSteps_succ hs]; exact ih (by rwa [runSteps_succ hs] at h)
    | fault f => simp [runSteps, hs] at h
    | refused r => simp [runSteps, hs] at h

end Sys2Proof.Machine
end

