-- ==== Sys2Proof/Tests/Slice0.lean ====
section
/-! SUPPORT. The model's own tests: well-formedness, decoding, the spec's vectors, and a witness for every statement
that has hypotheses. -/

namespace Sys2Proof.Tests

open Sys2Proof.Machine

/-! ## Helpers -/

/-- The result is a next state with the property. -/
def nextIs (r : Result) (p : State → Bool) : Bool :=
  match r with
  | .next t => p t
  | .fault _ => false
  | .refused _ => false

/-- A frame just accepted: class 0x06, id 0x01, `n` payload bytes from `src`. -/
def accepted (n : Half) (src : FrameSource) : State :=
  { State.reset with fCls := 0x06#8, fId := 0x01#8, fLen := n, fSrc := src, phase := .beginTx }

/-- A frame in phase PAYLOAD at byte `i` of `n`. -/
def inPayload (i n : Half) (src : FrameSource) : State :=
  { accepted n src with phase := .payload, idx := i }

/-- A host write as a turn. -/
def write (w : HostWrite) : Turn := .host (.write w)

/-- Idle, with an error standing. -/
def frozen : State := { State.reset with err := 1#3 }

/-! ## Well-formedness of untyped accesses (20_memory R40, R44; 93 U11): one ill-formed access per check -/

theorem test_wf_no_such_register : RawAccess.wellFormed (.read .reg 0x10) = false := by decide
theorem test_wf_no_such_pay_address : RawAccess.wellFormed (.write .pay 65535 0) = false := by decide
theorem test_wf_no_such_pb_offset : RawAccess.wellFormed (.read .pb 48) = false := by decide
theorem test_wf_cmd_not_readable : RawAccess.wellFormed (.read .reg 0x00) = false := by decide
theorem test_wf_status_not_writable : RawAccess.wellFormed (.write .reg 0x01 0) = false := by decide
theorem test_wf_cka_not_writable : RawAccess.wellFormed (.write .reg 0x0E 0) = false := by decide
theorem test_wf_pb_not_writable : RawAccess.wellFormed (.write .pb 0 0) = false := by decide
theorem test_wf_value_too_wide : RawAccess.wellFormed (.write .reg 0x08 65536) = false := by decide
theorem test_wf_largest : RawAccess.wellFormed (.write .pay 65534 255) = true := by decide
theorem test_wf_year_largest : RawAccess.wellFormed (.write .reg 0x08 65535) = true := by decide

theorem test_decode_access_rejects :
    decodeAccess (.read .reg 0x10) = .error .noSuchTarget ∧ decodeAccess (.write .pay 65535 0) = .error .noSuchTarget ∧
    decodeAccess (.read .pb 48) = .error .noSuchTarget ∧ decodeAccess (.read .reg 0) = .error .writeOnly ∧
    decodeAccess (.write .reg 1 0) = .error .readOnly ∧ decodeAccess (.write .reg 0x0E 0) = .error .readOnly ∧
    decodeAccess (.write .reg 0x0F 0) = .error .readOnly ∧ decodeAccess (.write .pb 0 0) = .error .readOnly ∧
    decodeAccess (.write .reg 0x08 65536) = .error .tooWide := by
  refine ⟨rfl, rfl, rfl, rfl, rfl, rfl, rfl, rfl, rfl⟩

/-- Script encodings of programs P1 and P2 (95_test_vectors section 9). -/
theorem test_decode_access_script :
    decodeAccess (.write .reg 0x02 0x0A) = .ok (.write (.reg (.cls 0x0A#8))) ∧
    decodeAccess (.write .reg 0x03 0x04) = .ok (.write (.reg (.id 0x04#8))) ∧
    decodeAccess (.write .reg 0x04 3) = .ok (.write (.reg (.plen 3#32))) ∧
    decodeAccess (.write .reg 0x00 0x01) = .ok (.write (.cmd 0x01#8)) ∧
    decodeAccess (.write .pay 0 0xF0) = .ok (.write (.pay 0 0xF0#8)) ∧
    decodeAccess (.read .reg 0x01) = .ok (.read (.reg .status)) ∧
    decodeAccess (.read .reg 0x0F) = .ok (.read (.reg .ckb)) ∧ decodeAccess (.read .pay 0) = .ok (.read (.pay 0)) := by
  refine ⟨rfl, rfl, rfl, rfl, rfl, rfl, rfl, rfl⟩

/-! ## Command words, written out from 30_encoding R66 -/

theorem test_decode_encode_word : decode 0b00000001#8 = .command .encode := by decide
theorem test_decode_aidsend_word : decode 0b00000010#8 = .command .aidsend := by decide
theorem test_decode_illegal_words :
    decode 0b00000000#8 = .illegal 0x00#8 ∧ decode 0b00000011#8 = .illegal 0x03#8 ∧
    decode 0b11111111#8 = .illegal 0xFF#8 := by decide
theorem test_table_words :
    decodeTableWord 8 0x01 = some .encode ∧ decodeTableWord 8 0x02 = some .aidsend ∧ decodeTableWord 8 0x03 = none ∧
    decodeTableWord 16 0x0001 = none := by decide
/-- No word is covered by two rows of the map. -/
theorem test_opcode_rows_disjoint : opcodeMap.Pairwise (fun a b => ∀ v, ¬(a.covers v = true ∧ b.covers v = true)) := by
  decide

/-! ## The checksum (40_checksum R84, R89; 95_test_vectors T1, T9) -/

theorem test_cksum_trace : cksum [0x06#8, 0x01#8, 0x03#8, 0x00#8, 0xF0#8, 0x00#8, 0x00#8] = (0xFA#8, 0x0F#8) := by decide
theorem test_cksum_order :
    cksum [0x01#8, 0x02#8, 0x00#8, 0x00#8] = (0x03#8, 0x0A#8) ∧ cksum [0x02#8, 0x01#8, 0x00#8, 0x00#8] = (0x03#8, 0x0B#8) := by
  decide
theorem test_cksum_wraps : cksum [0xFF#8, 0xFF#8] = (0xFE#8, 0xFD#8) := by decide
theorem test_cksum_header_aiding : cksum [0x0B#8, 0x01#8, 0x30#8, 0x00#8] = (0x3C#8, 0x8F#8) := by decide
theorem test_cksum_bit_flip :
    cksum [0x06#8, 0x01#8, 0x03#8, 0x80#8, 0xF0#8, 0x00#8, 0x00#8] = (0x7A#8, 0x0F#8) := by decide

/-- Frame V6 without its sync bytes (95_test_vectors T2). -/
theorem test_frame_v6 :
    (frame 0x7F#8 0x80#8 [0xAB#8]).map (List.drop 2) =
      some [0x7F#8, 0x80#8, 0x01#8, 0x00#8, 0xAB#8, 0xAB#8, 0x29#8] := by decide

/-! ## Scaling (95_test_vectors T6, T7; 42_aiding_packer R132) -/

theorem test_scale_half_away :
    scale 0x3F70000000000000#64 10000000 = some 39063 ∧ scale 0xBF70000000000000#64 10000000 = some (-39063) ∧
    scale 0x3FC8000000000000#64 1000 = some 188 := by decide
theorem test_scale_two_roundings :
    scale 0x3E6AD7F29ABCAF48#64 10000000 = some 1 ∧ scale 0x3FF3C0CA37C716AA#64 10000000 = some 12345679 ∧
    scale 0x3FF0020C49BA5E35#64 1000 = some 1001 := by decide
theorem test_scale_nearest :
    scale 0x3FF0147AE147AE14#64 1000 = some 1005 ∧ scale 0xC062E6B295E9E1B1#64 10000000 = some (-1512093000) := by decide
theorem test_scale_upper_edge :
    scale 0x406AD7F29A9C78F2#64 10000000 = some 2147483647 ∧ scale 0x406AD7F29AA1D756#64 10000000 = none := by decide
theorem test_scale_lower_edge :
    scale 0xC06AD7F29AD228D7#64 10000000 = some (-2147483648) ∧ scale 0xC06AD7F29AD7873B#64 10000000 = none := by decide
theorem test_scale_zeros_and_subnormal :
    scale 0x8000000000000000#64 10000000 = some 0 ∧ scale 0x0000000000000001#64 10000000 = some 0 := by decide
theorem test_scale_not_finite :
    scale 0x7FF0000000000000#64 1000 = none ∧ scale 0xFFF0000000000000#64 1000 = none ∧
    scale 0x7FF0000000000001#64 1000 = none ∧ scale 0x7FEFFFFFFFFFFFFF#64 10000000 = none := by decide

/-! ## Field stores (95_test_vectors T4) -/

theorem test_put32_negative :
    ((put32le (Vector.replicate 48 0#8) 16 (-338688000)).toList.drop 16).take 4 = [0x00#8, 0x08#8, 0xD0#8, 0xEB#8] := by
  decide
theorem test_put32_smallest :
    ((put32le (Vector.replicate 48 0#8) 44 (-2147483648)).toList.drop 44) = [0x00#8, 0x00#8, 0x00#8, 0x80#8] := by decide
theorem test_put16_order :
    ((put16le (Vector.replicate 48 0#8) 28 0x07EE#16).toList.drop 28).take 2 = [0xEE#8, 0x07#8] := by decide

/-! ## The commands, the gate and the errors (95_test_vectors T10, T3) -/

theorem test_encode_accepted :
    nextIs (exec .encode { State.reset with cls := 0x0A#8, id := 0x04#8, plen := 65535#32 })
      (fun t => t.phase == .beginTx && t.fCls == 0x0A#8 && t.fId == 0x04#8 && t.fLen == 0xFFFF#16 && t.err == 0#3) =
      true := by decide
theorem test_encode_too_long :
    nextIs (exec .encode { State.reset with plen := 65536#32 }) (fun t => t.phase == .idle && t.status == 0x10#8) =
      true := by decide
/-- AIDSEND right after reset is legal (42_aiding_packer R139, corner case iv). -/
theorem test_aidsend_accepted :
    nextIs (exec .aidsend { State.reset with second := 45#8 })
      (fun t => t.phase == .beginTx && t.fLen == 48#16 && t.fSrc == .srcPb && t.pb[34] == 45#8 && t.pb[33] == 0#8) =
      true := by decide
theorem test_aidsend_out_of_range :
    nextIs (exec .aidsend { State.reset with alt := 0x7FF8000000000000#64 })
      (fun t => t.phase == .idle && t.status == 0x20#8 && t.pb == State.reset.pb) = true := by decide
theorem test_illegal_command :
    nextIs (hostWrite (.cmd 0x03#8) State.reset) (fun t => t.phase == .idle && t.status == 0x40#8) = true := by decide
/-- Check 2 precedes check 3 (60_exceptions R167). -/
theorem test_overlap_before_illegal :
    nextIs (hostWrite (.cmd 0x07#8) (accepted 3#16 .srcPay)) (fun t => t.status == 0x31#8 && t.phase == .beginTx) =
      true := by decide
theorem test_frozen_ignores :
    nextIs (hostWrite (.reg (.plen 3#32)) { frozen with plen := 65536#32 })
      (fun t => t.plen == 65536#32 && t.err == 1#3) = true := by decide
theorem test_write_last_pay_byte :
    nextIs (hostWrite (.pay 65534 0xEE#8) State.reset) (fun t => t.payByte 65534 == 0xEE#8 && t.err == 0#3) = true := by
  decide
theorem test_store_keeps_order :
    Memory.store 3 0x33#8 (Memory.store 7 0x77#8 (Memory.store 3 0x11#8 [])) = [(3, 0x33#8), (7, 0x77#8)] := by decide

/-! ## The sequencer and reset (95_test_vectors P1, P2, T11) -/

/-- Step 7 of P1: an empty frame goes from LEN_HI to CK_A. -/
theorem test_empty_frame_skips_payload :
    nextIs (seqStep { accepted 0#16 .srcPay with phase := .lenHi, ckA := 0x0E#8, ckB := 0x26#8 })
      (fun t => t.phase == .ckA && t.ckA == 0x0E#8 && t.ckB == 0x34#8) = true := by decide
/-- Step 8 of P2: the first payload byte. -/
theorem test_payload_byte :
    nextIs (seqStep { inPayload 0#16 3#16 .srcPay with pay := [(0, 0xF0#8)], ckA := 0x0A#8, ckB := 0x21#8 })
      (fun t => t.phase == .payload && t.idx == 1#16 && t.ckA == 0xFA#8 && t.ckB == 0x1B#8 && t.tx == [.data 0xF0#8]) =
      true := by decide
/-- The sink reports a failure: TXFAIL, no error, not frozen (41_frame_encoder R116). -/
theorem test_sink_failure :
    nextIs (seqStep { accepted 3#16 .srcPay with phase := .endTx, env := ⟨[], [.ackFail], 0, none⟩ })
      (fun t => t.status == 0x04#8 && t.tx == [.endTx .ackFail] && t.env.answers == []) = true := by decide
theorem test_reset_aborts :
    (inPayload 1#16 3#16 .srcPay).resetStep.tx = [.abort] ∧ (accepted 3#16 .srcPay).resetStep.tx = [] ∧
    (inPayload 1#16 3#16 .srcPay).resetStep.status = 0x00#8 := by decide
theorem test_wait_reads_status :
    nextIs (step { State.reset with done := true, env := ⟨[.wait], [], 0, none⟩ })
      (fun t => t.env.hostData == some (.byte 0x02#8) && t.env.turns == []) = true := by decide
/-- `SEND` of an empty payload (30_encoding R70). -/
theorem test_script_send :
    (ScriptLine.send 0x0A#8 0x04#8 []).expand =
      some [write (.reg (.cls 0x0A#8)), write (.reg (.id 0x04#8)), write (.reg (.plen 0#32)), write (.cmd 0x01#8),
        .wait] := by rfl

/-! ## Witnesses: for every statement with hypotheses, a concrete state that meets them all -/

theorem reset_ready : State.reset.ready := ⟨rfl, rfl⟩

/-- The invariant holds right after a command was accepted. -/
theorem accepted_inv (n : Half) : (accepted n .srcPay).Inv where
  idxBelow := by simp [accepted]
  idxZero := by intro _ _; rfl
  aidRegs := by simp [accepted]
  oneResult := by simp [accepted, State.reset]
  noResultInFlight := by simp [accepted, State.reset]
  errCode := by simp [accepted, State.reset]
  errInFlight := by simp [accepted, State.reset]
  txWhole := by simp [accepted, State.reset, txShape, Phase.txOpen]
  txOpenPart := ⟨[], by simp [accepted, State.reset, State.openEvents, Phase.txOpen], rfl⟩
  checksum := by simp [accepted, State.reset, State.summed]
  payCanonical := rfl

/-- A frame whose transaction has just been opened. -/
def opened : State := { accepted 3#16 .srcPay with phase := .sync1, tx := [.beginTx Config.sinkAddr] }

/-- The invariant holds with a transaction open. -/
theorem opened_inv : opened.Inv where
  idxBelow := by simp [opened]
  idxZero := by intro _ _; rfl
  aidRegs := by simp [opened, accepted]
  oneResult := by simp [opened, accepted, State.reset]
  noResultInFlight := by simp [opened, accepted, State.reset]
  errCode := by simp [opened, accepted, State.reset]
  errInFlight := by simp [opened, accepted, State.reset]
  txWhole := by simp [opened, txShape, TxShape.after, Phase.txOpen]
  txOpenPart := ⟨[], by simp [opened, State.openEvents, Phase.txOpen, State.emitted], rfl⟩
  checksum := by simp [opened, accepted, State.reset, State.summed]
  payCanonical := rfl

/-- The invariant does not read the turns. -/
theorem inv_withTurns {s : State} (h : s.Inv) (l : List Turn) : (s.withTurns l).Inv :=
  ⟨h.1, h.2, h.3, h.4, h.5, h.6, h.7, h.8, h.9, h.10, h.11⟩

/-- Idle, one transaction cut short by a reset in the sink's history, CLS written since. -/
def resumed : State := { State.reset with cls := 0x55#8, tx := [.beginTx Config.sinkAddr, .abort] }

/-- The invariant holds when FENC is idle after an aborted transaction. -/
theorem resumed_inv : resumed.Inv where
  idxBelow := by simp [resumed, State.reset]
  idxZero := by intro _ _; rfl
  aidRegs := by simp [resumed, State.reset]
  oneResult := by simp [resumed, State.reset]
  noResultInFlight := by simp [resumed, State.reset]
  errCode := by simp [resumed, State.reset]
  errInFlight := by simp [resumed, State.reset]
  txWhole := by simp [resumed, State.reset, txShape, TxShape.after, Phase.txOpen]
  txOpenPart :=
    ⟨_, (List.append_nil _).symm, by simp [resumed, txShape, TxShape.after]⟩
  checksum := by simp [resumed, State.reset]
  payCanonical := rfl

theorem witness_StepRunsDecodedCommand :
    ((State.reset.withTurns [write (.cmd 0x01#8)]).env.turns = [.host (.write (.cmd 0x01#8))] ∧
      decode 0x01#8 = .command .encode) ∧
    ((State.reset.withTurns [write (.cmd 0x02#8)]).env.turns = [.host (.write (.cmd 0x02#8))] ∧
      decode 0x02#8 = .command .aidsend) ∧
    (State.reset.withTurns [write (.pay 65534 0xEE#8)]).env.turns = .host (.write (.pay 65534 0xEE#8)) :: [] ∧
    (opened.withTurns [.sequencer]).env.turns = .sequencer :: [] ∧
    (opened.withTurns [.reset]).env.turns = .reset :: [] ∧ (opened.withTurns [.wait]).env.turns = .wait :: [] ∧
    opened.env.turns = [] := by decide

theorem witness_OpcodeMapDecodes : (0x00#8 : Byte) ≠ 0x01#8 ∧ (0x00#8 : Byte) ≠ 0x02#8 := by decide

theorem witness_CommandDecodeEncode :
    Instr.encode.wellFormed = true ∧ Instr.aidsend.wellFormed = true ∧ decode 0x01#8 = .command .encode ∧
    decode 0x02#8 = .command .aidsend := by decide

theorem witness_HostAccessDecodeEncode :
    decodeAccess (.write .reg 0x04 0xFFFFFFFF) = .ok (.write (.reg (.plen 0xFFFFFFFF#32))) ∧
    decodeAccess (.read .pb 47) = .ok (.read (.pb 47)) := ⟨rfl, rfl⟩

theorem witness_ReadHandsTheValue : ∃ t, hostStep (.read (.pb 47)) opened = .next t := ⟨_, rfl⟩

theorem witness_StatusNeverRead : resumed.Inv ∧ opened.Inv ∧ opened.busy = true := ⟨resumed_inv, opened_inv, rfl⟩

theorem witness_WriteGate :
    frozen.err ≠ 0#3 ∧ (opened.err = 0#3 ∧ opened.phase ≠ .idle) ∧
    (State.reset.err = 0#3 ∧ State.reset.phase = .idle) := by decide

theorem witness_OperandWritePerformed :
    State.reset.ready ∧ ReadReg.id ≠ (OperandWrite.plen 0xFFFFFFFF#32).target := ⟨reset_ready, by decide⟩

theorem witness_PayWritePerformed :
    State.reset.ready ∧ (65533 : Nat) ≠ (65534 : Fin 65535).val := ⟨reset_ready, by decide⟩

theorem witness_LenRangeRaised :
    (State.ready { State.reset with plen := 65536#32 } ∧ 65535 < (65536#32).toNat) ∧
    (State.ready { State.reset with plen := 65535#32 } ∧ ¬65535 < (65535#32).toNat ∧
      ∃ t, exec .encode { State.reset with plen := 65535#32 } = .next t) :=
  ⟨⟨⟨rfl, rfl⟩, by decide⟩, ⟨⟨rfl, rfl⟩, by decide, ⟨_, rfl⟩⟩⟩

theorem witness_AidRangeRaised :
    (State.ready { State.reset with lat := 0x7FF8000000000000#64 } ∧ scale 0x7FF8000000000000#64 10000000 = none) ∧
    (State.ready { State.reset with lon := 0x406AD7F29ABCAF48#64 } ∧ scale 0x406AD7F29ABCAF48#64 10000000 = none) ∧
    (State.ready { State.reset with alt := 0xC140624DD3126E98#64 } ∧ scale 0xC140624DD3126E98#64 1000 = none) ∧
    ∃ t, exec .aidsend State.reset = .next t :=
  ⟨⟨⟨rfl, rfl⟩, by decide⟩, ⟨⟨rfl, rfl⟩, by decide⟩, ⟨⟨rfl, rfl⟩, by decide⟩, ⟨_, rfl⟩⟩

theorem witness_IllegalCmdRaised :
    State.reset.ready ∧ (0x00#8 : Byte) ≠ 0x01#8 ∧ (0x00#8 : Byte) ≠ 0x02#8 ∧
    ∃ t, hostWrite (.cmd 0x03#8) State.reset = .next t := ⟨reset_ready, by decide, by decide, ⟨_, rfl⟩⟩

theorem witness_ErrorStandsUntilReset :
    (frozen.err ≠ 0#3 ∧ frozen.phase = .idle ∧ (∀ rest, frozen.env.turns ≠ .reset :: rest) ∧
      ∃ t, step frozen = .next t) ∧
    (State.err { opened with err := 3#3 } ≠ 0#3 ∧ ∃ t, step { opened with err := 3#3 } = .next t) :=
  ⟨⟨by decide, rfl, fun _ h => (by cases h), ⟨_, rfl⟩⟩, by decide, ⟨_, rfl⟩⟩

theorem witness_EncodeAccepted :
    (State.reset.err = 0#3 ∧ State.reset.phase = .idle ∧ State.reset.plen.toNat ≤ 65535) ∧
    (State.plen { State.reset with plen := 65535#32 }).toNat ≤ 65535 := by decide

theorem witness_AidsendAccepted :
    State.reset.err = 0#3 ∧ State.reset.phase = .idle ∧ scale State.reset.lat 10000000 = some 0 ∧
    scale State.reset.lon 10000000 = some 0 ∧ scale State.reset.alt 1000 = some 0 := by decide

theorem witness_AcceptedCommandLatchesItsFrame :
    (State.ready { State.reset with plen := 65535#32 } ∧ (65535#32).toNat ≤ 65535) ∧
    (State.ready { State.reset with lat := 0x406AD7F29A86FF63#64 } ∧
      scale 0x406AD7F29A86FF63#64 10000000 = some 2147483647 ∧ scale State.reset.lon 10000000 = some 0 ∧
      scale State.reset.alt 1000 = some 0) :=
  ⟨⟨⟨rfl, rfl⟩, by decide⟩, ⟨rfl, rfl⟩, by decide, by decide, by decide⟩

theorem witness_CommandFrame :
    (∃ t, exec .encode State.reset = .next t) ∧ (∃ t, exec .aidsend opened = .next t ∧ t.err ≠ opened.err) ∧
    (∃ t, exec .aidsend frozen = .next t ∧ t.err = frozen.err) :=
  ⟨⟨_, rfl⟩, ⟨_, rfl, by decide⟩, ⟨_, rfl, rfl⟩⟩

theorem witness_FrameChecksumRoundTrip :
    (([] : List Byte).length ≤ 65535) ∧ (List.replicate 65535 (0xFF#8 : Byte)).length ≤ 65535 :=
  ⟨by decide, List.length_replicate.le⟩

theorem witness_SingleBitChangesChecksum : ([0x06#8, 0x01#8] : List Byte)[1]? = some 0x01#8 ∧ 7 < 8 := by decide

theorem witness_FrameFormat :
    65535 < (List.replicate 65536 (0#8 : Byte)).length ∧ (List.replicate 65535 (0#8 : Byte)).length ≤ 65535 ∧
    0 < (List.replicate 65535 (0#8 : Byte)).length :=
  ⟨List.length_replicate.ge, List.length_replicate.le, by rw [List.length_replicate]; decide⟩

theorem witness_PutStores : 47 < 48 ∧ 46 + 1 < 48 ∧ 44 + 3 < 48 := by decide

theorem witness_OnlyAidsendWritesPb :
    (∃ t, step { State.reset with pb := Vector.replicate 48 1#8, env := ⟨[.reset], [], 0, none⟩ } = .next t ∧
      t.pb ≠ Vector.replicate 48 1#8) ∧
    (∃ t, step { State.reset with second := 45#8, env := ⟨[write (.cmd 0x02#8)], [], 0, none⟩ } = .next t ∧
      t.pb ≠ State.reset.pb) := by
  refine ⟨⟨_, rfl, by decide⟩, _, rfl, fun h => ?_⟩
  have h1 := congrArg (fun B : AidBuffer => B[34]) h
  revert h1
  decide

theorem witness_ReservedBytesStayZero : resumed.reservedZero ∧ ∃ t, step resumed = .next t :=
  ⟨by unfold State.reservedZero; decide, ⟨_, rfl⟩⟩

theorem witness_ScaleRange :
    ((0x7FF0000000000000#64).extractLsb' 52 11).toNat = 2047 ∧
    scale 0x406AD7F29A86FF63#64 10000000 = some 2147483647 ∧
    scale 0xC06AD7F29ABCAF48#64 10000000 = some (-2147483648) := by decide

/-- Both ends of the signed 32-bit range, and one step beyond each (95_test_vectors T7). -/
theorem witness_ScaleRange_composition :
    Binary64.ofPattern 0xC1E0000000000000#64 = .finite true (2 ^ 52) 1053 ∧
    rn64 (2 ^ 52 * 1) 1053 = some (2 ^ 52, 1053) ∧ roundHalfAway true (2 ^ 52) 1053 = -2147483648 ∧
    roundHalfAway false (2 ^ 52) 1053 = 2147483648 ∧ rn64 (2 ^ 53 - 1) 2045 = some (2 ^ 53 - 1, 2045) ∧
    rn64 (2 ^ 53 - 1) 2046 = none := by decide

theorem witness_ProductRoundsToNearest :
    rn64 0 0 = some (0, 0) ∧ rn64 (2 ^ 53 + 1) 0 = some (2 ^ 52, 1) ∧ 1 < 2 ^ 53 := by decide

theorem witness_ScaleOfExactProduct :
    Binary64.ofPattern 0x41DFFFFFFFC00000#64 = .finite false 9007199250546688 1052 ∧
    9007199250546688 * 1 * 2 ^ 1052 = 2147483647 * 2 ^ 1074 ∧ 2147483647 ≤ 2147483647 := by
  refine ⟨by decide, ?_, by decide⟩
  rw [show 1074 = 22 + 1052 from rfl, pow_add, ← mul_assoc]
  exact congrArg (fun x => x * 2 ^ 1052) (by decide : 9007199250546688 * 1 = 2147483647 * 2 ^ 22)

/-- The smallest legal result, -2147483648 exactly (42_aiding_packer R132, corner case iii). -/
theorem witness_ScaleOfExactProduct_smallest :
    Binary64.ofPattern 0xC1E0000000000000#64 = .finite true (2 ^ 52) 1053 ∧
    2 ^ 52 * 1 * 2 ^ 1053 = 2147483648 * 2 ^ 1074 := by
  refine ⟨by decide, ?_⟩
  rw [show 1074 = 21 + 1053 from rfl, pow_add, ← mul_assoc]
  exact congrArg (fun x => x * 2 ^ 1053) (by decide : 2 ^ 52 * 1 = 2147483648 * 2 ^ 21)

theorem witness_ScaleWithinOne :
    Binary64.ofPattern 0xBF70000000000000#64 = .finite true 4503599627370496 1014 ∧
    scale 0xBF70000000000000#64 10000000 = some (-39063) := by decide

theorem witness_SequencerPhases : ∀ p : Phase, (State.phase { State.reset with phase := p }) = p := fun _ => rfl

theorem witness_PayloadPhase :
    ((inPayload 0#16 1#16 .srcPay).phase = .payload ∧ (inPayload 0#16 1#16 .srcPay).fSrc = .srcPay ∧
      (0#16).toNat + 1 = (1#16).toNat) ∧
    ((65533#16).toNat < (65535#16).toNat ∧ (65533#16).toNat + 1 ≠ (65535#16).toNat) ∧
    (65534#16).toNat + 1 = (65535#16).toNat ∧
    ((inPayload 0#16 48#16 .srcPb).fSrc = .srcPb ∧ (inPayload 0#16 48#16 .srcPb).fLen.toNat = 48) ∧
    (47#16).toNat + 1 = (inPayload 47#16 48#16 .srcPb).fLen.toNat := by decide

theorem witness_SequencerFrame :
    (∃ t, seqStep opened = .next t ∧ opened.phase ≠ .endTx) ∧ ∃ t, seqStep State.reset = .next t :=
  ⟨⟨_, rfl, by decide⟩, ⟨_, rfl⟩⟩

theorem witness_StepKeepsInvariant :
    (resumed.Inv ∧ ∃ t, step resumed = .next t) ∧ (opened.Inv ∧ ∃ t, step opened = .next t) :=
  ⟨⟨resumed_inv, _, rfl⟩, opened_inv, _, rfl⟩

theorem witness_InvariantStepsNeverStop : (accepted 65535#16 .srcPay).Inv := accepted_inv _

theorem witness_ResetGivesResetValues : (opened.withTurns [.reset]).env.turns = .reset :: [] := rfl

theorem witness_ResetAbortsOpenTransaction :
    (opened.withTurns [.reset]).env.turns = .reset :: [] ∧ (opened.withTurns [.reset]).phase ≠ .idle ∧
    (opened.withTurns [.reset]).phase ≠ .beginTx ∧ ((accepted 3#16 .srcPay).withTurns [.reset]).phase = .beginTx ∧
    (State.reset.withTurns [.reset]).phase = .idle := by decide

theorem witness_TxOnlyGrows : ∃ t, step opened = .next t ∧ t.tx ≠ opened.tx :=
  ⟨_, rfl, by simp⟩

theorem witness_BusyLocksFrameData :
    (opened.withTurns [write (.reg (.cls 0x55#8))]).phase ≠ .idle ∧
    (∀ rest, (opened.withTurns [write (.reg (.cls 0x55#8))]).env.turns ≠ .reset :: rest) ∧
    ∃ t, step (opened.withTurns [write (.reg (.cls 0x55#8))]) = .next t :=
  ⟨by decide, fun _ h => (by cases h), _, rfl⟩

theorem witness_OnlyCommandsStartFrames :
    ∃ t, step (State.reset.withFetchWord 8 0x01) = .next t ∧ (State.reset.withFetchWord 8 0x01).phase = .idle ∧
      t.phase ≠ .idle := ⟨_, rfl, rfl, by decide⟩

/-- Nine sequencer turns with a refused host write among them, before the last turn of an empty frame. -/
theorem witness_FrameLaw :
    let l := write (.pay 0 0#8) :: List.replicate 9 Turn.sequencer
    (accepted 0#16 .srcPay).phase = .beginTx ∧ (accepted 0#16 .srcPay).idx = 0#16 ∧
    (accepted 0#16 .srcPay).ckA = 0#8 ∧ (accepted 0#16 .srcPay).ckB = 0#8 ∧ (accepted 0#16 .srcPay).done = false ∧
    (accepted 0#16 .srcPay).txfail = false ∧ ((accepted 48#16 .srcPb).fSrc = .srcPb → (accepted 48#16 .srcPb).fLen.toNat = 48) ∧
    (∀ x ∈ l, x.plain = true) ∧ sequencerTurns l = (accepted 0#16 .srcPay).fLen.toNat + 9 ∧
    ((accepted 0#16 .srcPay).withTurns (l ++ [.sequencer])).env.turns = l ++ .sequencer :: [] ∧
    l.any Turn.isWrite = true := by decide

theorem witness_EncodeSendsItsFrame :
    State.ready { State.reset with plen := 65535#32 } ∧ (65535#32).toNat ≤ 65535 ∧ State.reset.env.turns = [] :=
  ⟨⟨rfl, rfl⟩, by decide, rfl⟩

theorem witness_AidsendSendsItsFrame :
    State.ready { State.reset with lat := 0x4044810CB295E9E2#64 } ∧ State.reset.env.turns = [] ∧
    scale 0x4044810CB295E9E2#64 10000000 = some 410082000 ∧ scale State.reset.lon 10000000 = some 0 ∧
    scale State.reset.alt 1000 = some 0 := ⟨⟨rfl, rfl⟩, rfl, by decide, by decide, by decide⟩

/-- Two machines that differ in a register no frame of ENCODE depends on. -/
theorem witness_FramesDependOnMessageOnly :
    State.ready { State.reset with lat := 1#64 } ∧ State.reset.ready ∧
    ∀ a, a < State.reset.plen.toNat → State.payByte { State.reset with lat := 1#64 } a = State.reset.payByte a :=
  ⟨⟨rfl, rfl⟩, reset_ready, fun _ _ => rfl⟩

theorem witness_FrameEndsInItsSteps :
    (accepted 65535#16 .srcPay).Inv ∧ (accepted 65535#16 .srcPay).env.turns = [] ∧
    (accepted 65535#16 .srcPay).phase = .beginTx ∧ resumed.Inv ∧ 0 < opened.stepsLeft :=
  ⟨accepted_inv _, rfl, rfl, resumed_inv, by decide⟩

theorem witness_WaitEndsIdle :
    (opened.withTurns [.wait]).Inv ∧ (opened.withTurns [.wait]).env.turns = .wait :: [] ∧
    (resumed.withTurns [.wait]).Inv := ⟨inv_withTurns opened_inv _, rfl, inv_withTurns resumed_inv _⟩

end Sys2Proof.Tests
end

section
/-! PROOF. What a host read answers, and the arithmetic of STATUS (10_state R14, 41_frame_encoder R100). -/

namespace Sys2Proof.Machine

/-! ## A host read -/

/-- A read is always performed and hands the host the value of the moment (R100). -/
theorem hostStep_read (r : HostRead) (s : State) :
    hostStep (.read r) s = .next (s.handHost (hostRead r s)) := rfl

/-- Handing the host a value touches the environment only. -/
theorem State.handHost_restore_env (s : State) (v : HostWord) : { s.handHost v with env := s.env } = s := rfl

/-! ## STATUS -/

/-- A concatenation is positional: its high part weighs `2 ^ n`. -/
theorem toNat_append_eq_add {m n : Nat} (x : BitVec m) (y : BitVec n) :
    (x ++ y).toNat = x.toNat * 2 ^ n + y.toNat := by
  rw [BitVec.toNat_append, ← Nat.shiftLeft_add_eq_or_of_lt y.isLt, Nat.shiftLeft_eq]

theorem State.busy_toNat (s : State) : s.busy.toNat = if s.phase = .idle then 0 else 1 := by
  by_cases h : s.phase = .idle <;> simp [State.busy, h]

/-- The weight of each flag in STATUS. -/
theorem State.status_toNat (s : State) :
    s.status.toNat = s.busy.toNat + 2 * s.done.toNat + 4 * s.txfail.toNat + 16 * s.err.toNat := by
  simp only [State.status, toNat_append_eq_add, BitVec.toNat_ofBool, BitVec.toNat_ofNat]
  omega

/-- Bit 3 of STATUS is reserved: the zero between ERR and TXFAIL. -/
theorem State.status_bit3 (s : State) : s.status.getLsbD 3 = false := by
  simp only [State.status, BitVec.getLsbD_append]
  simp

/-- Bit 7 of STATUS is reserved: the zero above ERR. -/
theorem State.status_bit7 (s : State) : s.status.getLsbD 7 = false := by
  simp only [State.status, BitVec.getLsbD_append]
  simp

/-- Settles O9: the weights of the flags, the two reserved zeros, and a read that touches the environment only. -/
theorem statusComposition : Obligations.StatusComposition := by
  intro s
  refine ⟨?_, s.status_bit3, s.status_bit7, _, hostStep_read _ s, s.handHost_restore_env _⟩
  rw [s.status_toNat, s.busy_toNat]

end Sys2Proof.Machine
end

section
/-! PROOF. The frame's bytes, position by position, and where a frame is undefined (30_encoding R60, R61). -/

namespace Sys2Proof.Machine

/-! ## Where a frame is defined -/

theorem frame_of_length_le (c i : Byte) {p : List Byte} (h : p.length ≤ 65535) :
    frame c i p = some (frameBytes c i (BitVec.ofNat 16 p.length) p) := if_pos h

theorem frame_of_lt_length (c i : Byte) {p : List Byte} (h : 65535 < p.length) : frame c i p = none :=
  if_neg (Nat.not_le.mpr h)

/-! ## The length field -/

/-- The low byte comes first; neither byte sees what the truncation to 16 bits drops, so no bound on `n` is needed. -/
theorem le16_ofNat (n : Nat) : le16 (BitVec.ofNat 16 n) = [BitVec.ofNat 8 n, BitVec.ofNat 8 (n / 256)] := by
  have low : (BitVec.ofNat 16 n).extractLsb' 0 8 = BitVec.ofNat 8 n := by
    apply BitVec.eq_of_toNat_eq
    simp only [BitVec.extractLsb'_toNat, BitVec.toNat_ofNat, Nat.shiftRight_zero]
    omega
  have high : (BitVec.ofNat 16 n).extractLsb' 8 8 = BitVec.ofNat 8 (n / 256) := by
    apply BitVec.eq_of_toNat_eq
    simp only [BitVec.extractLsb'_toNat, BitVec.toNat_ofNat, Nat.shiftRight_eq_div_pow]
    omega
  rw [le16, low, high]

theorem frameHeader_ofNat (c i : Byte) (n : Nat) :
    frameHeader c i (BitVec.ofNat 16 n) = [c, i, BitVec.ofNat 8 n, BitVec.ofNat 8 (n / 256)] := by
  rw [frameHeader, le16_ofNat, List.cons_append, List.singleton_append]

/-- The bytes before the payload: the sync bytes, then the header. -/
theorem frameBytes_head (c i : Byte) (n : Half) (p : List Byte) {k : Nat} (h : k < 6) :
    (frameBytes c i n p)[k]? = ([Config.sync1, Config.sync2] ++ frameHeader c i n)[k]? := by
  have hk : k < ([Config.sync1, Config.sync2] ++ frameHeader c i n).length := h
  rw [frameBytes, List.append_assoc, List.getElem?_append_left hk]

/-- Settles O30: the bytes before the payload by the header's form, then the payload and the two checksum bytes by the
laws of `frameBytes`. -/
theorem frameFormat : Obligations.FrameFormat := by
  intro c i p
  refine ⟨frame_of_lt_length c i, fun hp => ⟨_, frame_of_length_le c i hp, frameBytes_length c i _ p, ?_⟩⟩
  have lowNat : (BitVec.ofNat 8 p.length).toNat = p.length % 256 := BitVec.toNat_ofNat ..
  have highNat : (BitVec.ofNat 8 (p.length / 256)).toNat = p.length / 256 :=
    (BitVec.toNat_ofNat ..).trans (Nat.mod_eq_of_lt (by omega))
  have head {k : Nat} (h : k < 6) := frameBytes_head c i (BitVec.ofNat 16 p.length) p h
  have ckA := frameBytes_ckA c i (BitVec.ofNat 16 p.length) p
  have ckB := frameBytes_ckB c i (BitVec.ofNat 16 p.length) p
  simp only [frameHeader_ofNat] at head ckA ckB
  refine ⟨head (by decide), head (by decide), head (by decide), head (by decide), ?_, ?_,
    fun k hk => frameBytes_payload c i _ hk, ckA, ckB⟩
  · rw [head (by decide)]; exact congrArg some lowNat
  · rw [head (by decide)]; exact congrArg some highNat

end Sys2Proof.Machine
end

section
/-! PROOF. The checksum unit step by step and over a list, and the checksum of a frame's covered bytes (40_checksum R82,
R83, R86). -/

namespace Sys2Proof.Machine

/-! ## One accumulation -/

theorem ckPair_fst_toNat (ab : Byte × Byte) (b : Byte) : (ckPair ab b).1.toNat = (ab.1.toNat + b.toNat) % 256 :=
  BitVec.toNat_add ..

/-- The second component adds the first one as already updated. -/
theorem ckPair_snd_toNat (ab : Byte × Byte) (b : Byte) :
    (ckPair ab b).2.toNat = (ab.2.toNat + (ckPair ab b).1.toNat) % 256 :=
  BitVec.toNat_add ..

/-- Settles O25: `CkUpd` is one accumulation on the two accumulators. -/
theorem ckUpdEffect : Obligations.CkUpdEffect := fun _ _ =>
  ⟨_, _, rfl, ckPair_fst_toNat .., ckPair_snd_toNat ..⟩

/-! ## A list of bytes -/

/-- From any accumulators, one `CkUpd` per byte runs the pure accumulation on them and touches nothing else. -/
theorem foldl_ckUpd (l : List Byte) (s : State) :
    l.foldl State.ckUpd s =
      { s with ckA := (l.foldl ckPair (s.ckA, s.ckB)).1, ckB := (l.foldl ckPair (s.ckA, s.ckB)).2 } := by
  induction l generalizing s with
  | nil => rfl
  | cons b l ih => exact ih (s.ckUpd b)

/-- Settles O26: the fold from cleared accumulators, and one more byte as one more accumulation. -/
theorem cksumIsStateful : Obligations.CksumIsStateful := by
  intro s l
  refine ⟨foldl_ckUpd l s.ckClr, cksum_nil, fun b => ?_⟩
  rw [cksum_append_singleton]
  exact ⟨ckPair_fst_toNat .., ckPair_snd_toNat ..⟩

/-! ## The covered bytes of a frame -/

/-- Without its two sync bytes and its two checksum bytes a frame is its header and its payload (R84). -/
theorem frameBytes_covered (c i : Byte) (n : Half) (p : List Byte) :
    ((frameBytes c i n p).drop 2).take ((frameBytes c i n p).length - 4) = frameHeader c i n ++ p := by
  have len : (frameBytes c i n p).length - 4 = (frameHeader c i n ++ p).length := by
    simp only [frameBytes_length, frameHeader_eq, List.length_append, List.length_cons, List.length_nil]
    omega
  rw [len, frameBytes, List.append_assoc, List.append_assoc, ← List.append_assoc (frameHeader c i n)]
  exact List.take_left

/-- Settles O28: the covered bytes are those the frame's own checksum was taken of, and it stands in the last two
positions. -/
theorem frameChecksumRoundTrip : Obligations.FrameChecksumRoundTrip := by
  intro c i p hp
  refine ⟨_, frame_of_length_le c i hp, ?_⟩
  have last : 8 + p.length - 1 = 7 + p.length := by omega
  have secondLast : 8 + p.length - 2 = 6 + p.length := by omega
  rw [frameBytes_covered, frameBytes_length, last, secondLast]
  exact ⟨frameBytes_ckA .., frameBytes_ckB ..⟩

end Sys2Proof.Machine
end

section
/-! PROOF. The host's accesses to a ready FENC, the values a read answers, and the start of a frame (41_frame_encoder
R100 to R104, R107). -/

namespace Sys2Proof.Machine

/-! ## A write of an operand register -/

/-- Read after write: the register written reads as the value given, every other one as before (R102). -/
theorem State.readReg_writeReg (s : State) (x : OperandWrite) (r : ReadReg) :
    (s.writeReg x).readReg r = if r = x.target then x.word else s.readReg r := by
  cases x <;> cases r <;> rfl

/-- An operand write is an update of operand registers only (R102). -/
theorem State.writeReg_eq_operand_update (s : State) (x : OperandWrite) :
    s.writeReg x = { s with
      cls := (s.writeReg x).cls, id := (s.writeReg x).id, plen := (s.writeReg x).plen, lat := (s.writeReg x).lat,
      lon := (s.writeReg x).lon, alt := (s.writeReg x).alt, year := (s.writeReg x).year,
      month := (s.writeReg x).month, day := (s.writeReg x).day, hour := (s.writeReg x).hour,
      minute := (s.writeReg x).minute, second := (s.writeReg x).second } := by
  cases x <;> rfl

/-! ## What a ready FENC performs -/

theorem hostWrite_reg_of_ready {s : State} (h : s.ready) (x : OperandWrite) :
    hostWrite (.reg x) s = .next (s.writeReg x) :=
  congrArg Host.Outcome.next (State.gate_ready h.1 h.2 _)

theorem hostWrite_pay_of_ready {s : State} (h : s.ready) (a : Fin 65535) (v : Byte) :
    hostWrite (.pay a v) s = .next (s.writePay a v) :=
  congrArg Host.Outcome.next (State.gate_ready h.1 h.2 _)

/-- The dispatch of a performed write to CMD (R104). -/
theorem hostWrite_cmd_of_ready {s : State} (h : s.ready) (v : Byte) :
    hostWrite (.cmd v) s = .next
      (if v = 0x01#8 then s.encodeCommand
      else if v = 0x02#8 then s.aidsendCommand
      else s.raise .illegalCmd) := by
  have performed (f : State → State) : s.gate f = f s := State.gate_ready h.1 h.2 f
  rw [hostWrite]
  rcases commandWrite_cases v s with ⟨hv, e⟩ | ⟨hv, e⟩ | ⟨h1, h2, e⟩
  · rw [e, performed, if_pos hv]
  · rw [e, performed, hv, if_neg (by decide), if_pos rfl]
  · rw [e, performed, if_neg h1, if_neg h2]

/-- Settles O11: frozen and busy by what the gate refuses, ready by the three kinds of write it performs. -/
theorem writeGate : Obligations.WriteGate := by
  intro s w
  refine ⟨fun frozen => ?_, fun h busy => ?_, fun h idle => ?_⟩
  · rw [hostWrite_not_ready (.inl frozen), if_neg frozen]
  · rw [hostWrite_not_ready (.inr busy), if_pos h]; rfl
  · cases w with
    | pay a v => exact hostWrite_pay_of_ready ⟨h, idle⟩ a v
    | reg x => exact hostWrite_reg_of_ready ⟨h, idle⟩ x
    | cmd v =>
      dsimp only
      rw [hostWrite_cmd_of_ready ⟨h, idle⟩]
      split
      · rfl
      · split <;> rfl

/-- Settles O12: the performed write, its reads, and everything that is no operand register. -/
theorem operandWritePerformed : Obligations.OperandWritePerformed := by
  intro s x h
  refine ⟨_, hostWrite_reg_of_ready h x, ?_, fun r hr => ?_, ?_⟩
  · rw [s.readReg_writeReg, if_pos rfl]
  · rw [s.readReg_writeReg, if_neg hr]
  · rw [s.writeReg_eq_operand_update x]
    exact ⟨rfl, rfl, rfl, rfl, rfl, rfl, rfl, rfl, rfl, rfl, rfl⟩

/-- Settles O13: the performed write and the two laws of a byte of PAY after it. -/
theorem payWritePerformed : Obligations.PayWritePerformed := fun s a v h =>
  ⟨_, hostWrite_pay_of_ready h a v, s.payByte_writePay_self a v, fun _ hb => s.payByte_writePay_of_ne a v hb⟩

/-! ## A read -/

/-- Settles O7: a read touches the environment only; what it answers is the model's table of registers, and the byte
of PAY or PB. -/
theorem hostReadsChangeNothing : Obligations.HostReadsChangeNothing := fun s =>
  ⟨fun r => ⟨_, hostStep_read r s, s.handHost_restore_env _⟩,
    rfl, rfl, rfl, rfl, rfl, rfl, rfl, rfl, rfl, rfl, rfl, rfl, rfl, rfl, rfl, fun _ => rfl, fun _ => rfl⟩

/-! ## The start of a frame -/

/-- FENC is busy from the start of a frame on, before the first sink event (R107). -/
@[simp] theorem State.startFrame_busy (s : State) : s.startFrame.busy = true := by
  rw [State.busy, s.startFrame_phase]; rfl

/-- Settles O24: `CkClr` and the other fields written are one update of the state. -/
theorem startFrameEffect : Obligations.StartFrameEffect := fun s => ⟨rfl, s.startFrame_busy⟩

end Sys2Proof.Machine
end

section
/-! PROOF. The packer: each field store byte by byte, and the AidingPayload laid out (42_aiding_packer R134 to R140,
30_encoding R63). -/

namespace Sys2Proof.Machine

/-! ## The field stores -/

/-- A byte of a bit vector is a digit of its value in base 256. -/
theorem toNat_extractByte {n : Nat} (x : BitVec n) (k : Nat) :
    (x.extractLsb' k 8).toNat = x.toNat / 2 ^ k % 256 := by
  rw [BitVec.extractLsb'_toNat, Nat.shiftRight_eq_div_pow]

/-- A byte of the image of a signed value, by integer arithmetic (R136). -/
theorem u32_extractByte (n : Int) (k : Nat) :
    (((u32 n).extractLsb' k 8).toNat : Int) = n % 2 ^ 32 / 2 ^ k % 256 := by
  rw [toNat_extractByte, ← u32_toNat]
  push_cast
  rfl

/-- A byte of the buffer after `Put16LE` (R135): the second store leaves the byte of the first. -/
theorem put16le_getElem (B : AidBuffer) (o : Nat) (j : Fin 48) (v : Half) (h : o + 1 < 48) :
    (put16le B o v h)[j] =
      if j.val = o then v.extractLsb' 0 8 else if j.val = o + 1 then v.extractLsb' 8 8 else B[j] := by
  simp only [put16le, put8_getElem]
  grind

/-- A byte of the buffer after `Put32LE` (R136). -/
theorem put32le_getElem (B : AidBuffer) (o : Nat) (j : Fin 48) (n : Int) (h : o + 3 < 48) :
    (put32le B o n h)[j] =
      if j.val = o then (u32 n).extractLsb' 0 8
      else if j.val = o + 1 then (u32 n).extractLsb' 8 8
      else if j.val = o + 2 then (u32 n).extractLsb' 16 8
      else if j.val = o + 3 then (u32 n).extractLsb' 24 8
      else B[j] := by
  simp only [put32le, put8_getElem]
  grind

/-- Settles O31: the byte found at `j` by the three laws of a store, its value as a digit of the stored one. -/
theorem putStores : Obligations.PutStores := by
  intro B o j
  refine ⟨fun h v => put8_getElem B o j v h, fun h v => ?_, fun h n => ?_⟩
  · have low : (v.extractLsb' 0 8).toNat = v.toNat % 256 := by
      rw [toNat_extractByte, pow_zero, Nat.div_one]
    have high : (v.extractLsb' 8 8).toNat = v.toNat / 256 := by
      rw [toNat_extractByte]
      omega
    rw [put16le_getElem, apply_ite BitVec.toNat, apply_ite BitVec.toNat, low, high]
  · have low := u32_extractByte n 0
    rw [pow_zero, Int.ediv_one] at low
    rw [put32le_getElem, ← low, ← u32_extractByte n 8, ← u32_extractByte n 16, ← u32_extractByte n 24]
    split_ifs <;> rfl

/-! ## The AidingPayload -/

/-- Settles O32: the stores of `Pack` are updates, at fixed offsets, of the list of 48 zero bytes, which both sides
write out byte by byte. -/
theorem packLayout : Obligations.PackLayout := by
  intro x
  simp only [pack, put8_toList, put16le_toList, put32le_toList, Vector.toList_replicate, le16, le32,
    List.replicate, List.set, List.cons_append, List.nil_append]

/-- The three scaled coordinates stand side by side from offset 16 (R63). -/
theorem pack_coordinates (x : AidOperands) :
    ((pack x).toList.drop 16).take 12 = le32 (u32 x.la) ++ le32 (u32 x.lo) ++ le32 (u32 x.al) := by
  rw [packLayout x]
  rfl

/-- Settles O33: the three products computed, and the bytes of the three values at the coordinates' place. -/
theorem packingExample : Obligations.PackingExample := by
  refine ⟨by decide, by decide, by decide, fun m y mo d h mi s => ?_⟩
  have la : le32 (u32 410082000) = [0xD0#8, 0x5A#8, 0x71#8, 0x18#8] := by decide
  have lo : le32 (u32 289784000) = [0xC0#8, 0xC0#8, 0x45#8, 0x11#8] := by decide
  have al : le32 (u32 50000) = [0x50#8, 0xC3#8, 0x00#8, 0x00#8] := by decide
  rw [pack_coordinates, la, lo, al]
  rfl

end Sys2Proof.Machine
end

section
/-! PROOF. The errors: which cause each performed command meets, and the one order of checks of a host write
(60_exceptions R160 to R167). -/

namespace Sys2Proof.Machine

/-! ## What ERR is after a performed write -/

/-- The aiding operands are missing exactly when a coordinate gives `RangeError` (R162). -/
theorem State.aidOperands_eq_none_iff (s : State) :
    s.aidOperands = none ↔
      scale s.lat 10000000 = none ∨ scale s.lon 10000000 = none ∨ scale s.alt 1000 = none := by
  refine ⟨fun missing => ?_, State.aidOperands_eq_none⟩
  by_contra! inRange
  obtain ⟨hlat, hlon, halt⟩ := inRange
  obtain ⟨la, hla⟩ := Option.ne_none_iff_exists'.1 hlat
  obtain ⟨lo, hlo⟩ := Option.ne_none_iff_exists'.1 hlon
  obtain ⟨al, hal⟩ := Option.ne_none_iff_exists'.1 halt
  rw [State.aidOperands_eq_some hla hlo hal] at missing
  contradiction

theorem State.encodeCommand_err (s : State) :
    s.encodeCommand.err = if 65535 < s.plen.toNat then 1#3 else s.err := by
  rcases s.encodeCommand_cases with ⟨long, e⟩ | ⟨fits, e⟩
  · rw [e, if_pos long]; rfl
  · rw [e, if_neg (Nat.not_lt.2 fits)]; rfl

theorem State.aidsendCommand_err (s : State) :
    s.aidsendCommand.err = if s.aidOperands = none then 2#3 else s.err := by
  rcases s.aidsendCommand_cases with ⟨missing, e⟩ | ⟨x, present, e⟩
  · rw [e, if_pos missing]; rfl
  · rw [e, if_neg (by simp [present]), s.startAiding_err]

@[simp] theorem State.writeReg_err (s : State) (x : OperandWrite) : (s.writeReg x).err = s.err := by
  rw [s.writeReg_eq_operand_update x]

/-- ERR after a performed write to CMD, by the value written (R161 to R163). -/
theorem hostWrite_cmd_err {s t : State} (h : s.ready) {v : Byte} (e : hostWrite (.cmd v) s = .next t) :
    t.err =
      if v = 0x01#8 then (if 65535 < s.plen.toNat then 1#3 else 0#3)
      else if v = 0x02#8 then (if s.aidOperands = none then 2#3 else 0#3)
      else 4#3 := by
  rw [hostWrite_cmd_of_ready h] at e
  rw [← Host.Outcome.next.inj e, ← h.1, ← s.encodeCommand_err, ← s.aidsendCommand_err,
    apply_ite State.err, apply_ite State.err]
  rfl

/-! ## Each cause -/

theorem exec_encode_of_ready {s : State} (h : s.ready) : exec .encode s = .next s.encodeCommand :=
  congrArg Host.Outcome.next (State.gate_ready h.1 h.2 _)

theorem exec_aidsend_of_ready {s : State} (h : s.ready) : exec .aidsend s = .next s.aidsendCommand :=
  congrArg Host.Outcome.next (State.gate_ready h.1 h.2 _)

/-- Settles O14: the two ways a performed ENCODE goes; one leaves ERR at 0. -/
theorem lenRangeRaised : Obligations.LenRangeRaised := by
  intro s h
  rw [exec_encode_of_ready h]
  refine ⟨fun long => ?_, fun t e => ?_⟩
  · rcases s.encodeCommand_cases with ⟨_, e⟩ | ⟨fits, _⟩
    · rw [e]; rfl
    · exact absurd long (Nat.not_lt.2 fits)
  · rw [← Host.Outcome.next.inj e, s.encodeCommand_err, h.1]
    exact ite_eq_left_iff.trans (by simp)

/-- Settles O15: the two ways a performed AIDSEND goes; the operands are missing exactly when a coordinate is out of
range. -/
theorem aidRangeRaised : Obligations.AidRangeRaised := by
  intro s h
  rw [exec_aidsend_of_ready h, ← s.aidOperands_eq_none_iff]
  refine ⟨fun missing => ?_, fun t e => ?_⟩
  · rcases s.aidsendCommand_cases with ⟨_, e⟩ | ⟨x, present, _⟩
    · rw [e]; rfl
    · rw [missing] at present; contradiction
  · rw [← Host.Outcome.next.inj e, s.aidsendCommand_err, h.1]
    exact ite_eq_left_iff.trans (by simp)

/-- Settles O16: a legal code leaves ERR at 0, 1 or 2. -/
theorem illegalCmdRaised : Obligations.IllegalCmdRaised := by
  intro s v h
  refine ⟨fun h1 h2 => ?_, fun t e => ?_⟩
  · rw [hostWrite_cmd_of_ready h, if_neg h1, if_neg h2]; rfl
  · rw [hostWrite_cmd_err h e]
    split_ifs <;> simp [*]

/-! ## The order of the checks -/

/-- Settles O17: frozen and busy by what the gate refuses; ready by what ERR is after each kind of performed write. -/
theorem errorPriority : Obligations.ErrorPriority := by
  intro s w
  simp only [← s.aidOperands_eq_none_iff]
  by_cases frozen : s.err ≠ 0#3
  · exact ⟨s, by rw [hostWrite_not_ready (.inl frozen), if_neg frozen], fun _ => rfl, (if_pos frozen).symm⟩
  have clear : s.err = 0#3 := not_not.1 frozen
  by_cases busy : s.phase ≠ .idle
  · refine ⟨s.raise .overlap, by rw [hostWrite_not_ready (.inr busy), if_pos clear], absurd clear, ?_⟩
    rw [if_neg frozen, if_pos busy]; rfl
  have ready : s.ready := ⟨clear, not_not.1 busy⟩
  simp only [if_neg frozen, if_neg busy]
  cases w with
  | cmd v =>
    have e := hostWrite_cmd_of_ready ready v
    exact ⟨_, e, absurd clear, hostWrite_cmd_err ready e⟩
  | reg x => exact ⟨_, hostWrite_reg_of_ready ready x, absurd clear, (s.writeReg_err x).trans clear⟩
  | pay a v => exact ⟨_, hostWrite_pay_of_ready ready a v, absurd clear, (s.writePay_err a v).trans clear⟩

end Sys2Proof.Machine
end

section
/-! PROOF. Reset and the open transaction (70_reset_and_hazards R181). -/

namespace Sys2Proof.Machine

/-- A transaction is open in every phase but the two that stand before `Begin` (R181). -/
theorem Phase.txOpen_eq_false_iff (p : Phase) : p.txOpen = false ↔ p = .idle ∨ p = .beginTx := by
  cases p <;> decide

theorem State.resetStep_tx_of_closed {s : State} (h : s.phase = .idle ∨ s.phase = .beginTx) :
    s.resetStep.tx = s.tx := by
  have closed : s.phase.txOpen = false := s.phase.txOpen_eq_false_iff.2 h
  rw [s.resetStep_tx, closed]
  exact if_neg Bool.false_ne_true

theorem State.resetStep_tx_of_open {s : State} (hidle : s.phase ≠ .idle) (hbegin : s.phase ≠ .beginTx) :
    s.resetStep.tx = s.tx ++ [.abort] := by
  have notClosed : s.phase.txOpen ≠ false := fun closed =>
    (s.phase.txOpen_eq_false_iff.1 closed).elim hidle hbegin
  rw [s.resetStep_tx, if_pos (Bool.eq_true_of_not_eq_false notClosed)]

/-- Settles O50: a reset turn is one `resetStep`, and whether a transaction is open is read off the phase; consuming
the turn touches neither the phase nor TX. -/
theorem resetAbortsOpenTransaction : Obligations.ResetAbortsOpenTransaction := by
  intro s rest turn
  refine ⟨(s.withTurns rest).resetStep, step_reset_turn turn, State.resetStep_phase _, ?_, ?_⟩
  · exact State.resetStep_tx_of_closed (s := s.withTurns rest)
  · exact State.resetStep_tx_of_open (s := s.withTurns rest)

end Sys2Proof.Machine
end

section
/-! PROOF. Decode and encode agree: command words and host accesses (30_encoding R66 to R69, 20_memory R40, R44). -/

namespace Sys2Proof

/-! ## A value of a given width -/

/-- A value fits a width exactly when it is the value of a word of that width (R44). -/
theorem fitWord_eq_ok_iff {n v : Nat} {x : BitVec n} : fitWord n v = .ok x ↔ x.toNat = v := by
  unfold fitWord
  refine ⟨fun h => ?_, fun h => ?_⟩
  · split at h
    · rename_i fits
      rw [← Except.ok.inj h, BitVec.toNat_ofNat, Nat.mod_eq_of_lt fits]
    · cases h
  · rw [← h, if_pos x.isLt, BitVec.ofNat_toNat, BitVec.setWidth_eq]

@[simp] theorem fitWord_toNat {n : Nat} (x : BitVec n) : fitWord n x.toNat = .ok x :=
  fitWord_eq_ok_iff.2 rfl

theorem fitWord_of_lt {n v : Nat} (h : v < 2 ^ n) : fitWord n v = .ok (BitVec.ofNat n v) := if_pos h

/-- A mapped answer is `ok` exactly when the answer it was made from is. -/
theorem map_eq_ok_iff {ε α β : Type} {e : Except ε α} {f : α → β} {b : β} :
    e.map f = .ok b ↔ ∃ x, e = .ok x ∧ f x = b := by
  cases e <;> simp [Except.map]

/-! ## Register numbers -/

/-- Every readable register is found by its number (R100). -/
@[simp] theorem decodeRegRead_number (r : ReadReg) : decodeRegRead r.number = .ok r := by
  cases r <;> rfl

/-- Only the register's own number finds it (R100). -/
theorem number_of_decodeRegRead {n : Nat} {r : ReadReg} (h : decodeRegRead n = .ok r) : r.number = n := by
  unfold decodeRegRead at h
  split at h <;> cases h <;> rfl

/-- Every operand write is found by its number and value (R11). -/
@[simp] theorem decodeRegWrite_operand (w : OperandWrite) : decodeRegWrite w.number w.value = .ok (.reg w) := by
  cases w <;> simp [decodeRegWrite, OperandWrite.number, OperandWrite.value, Except.map]

@[simp] theorem decodeRegWrite_cmd (v : Byte) : decodeRegWrite 0 v.toNat = .ok (.cmd v) := by
  simp [decodeRegWrite, Except.map]

/-- A register write that decodes is encoded by the register's number and the value (R11, R13). -/
theorem encodeAccess_of_decodeRegWrite {n v : Nat} {w : HostWrite} (h : decodeRegWrite n v = .ok w) :
    encodeAccess (.write w) = .write .reg n v := by
  unfold decodeRegWrite at h
  split at h
  case h_2 | h_15 | h_16 | h_17 => cases h
  all_goals
    obtain ⟨x, fits, rfl⟩ := map_eq_ok_iff.1 h
    exact congrArg (RawAccess.write .reg _) (fitWord_eq_ok_iff.1 fits)

/-! ## Host accesses -/

theorem decodeAccess_encodeAccess (a : HostAccess) : decodeAccess (encodeAccess a) = .ok a := by
  cases a with
  | write w =>
    cases w with
    | cmd v => exact map_eq_ok_iff.2 ⟨_, decodeRegWrite_cmd v, rfl⟩
    | reg w => exact map_eq_ok_iff.2 ⟨_, decodeRegWrite_operand w, rfl⟩
    | pay a v => exact (dif_pos a.isLt).trans (map_eq_ok_iff.2 ⟨v, fitWord_toNat v, rfl⟩)
  | read r =>
    cases r with
    | reg r => exact map_eq_ok_iff.2 ⟨_, decodeRegRead_number r, rfl⟩
    | pay a => exact dif_pos a.isLt
    | pb o => exact dif_pos o.isLt

theorem encodeAccess_of_decodeAccess {r : RawAccess} {a : HostAccess} (h : decodeAccess r = .ok a) :
    encodeAccess a = r := by
  unfold decodeAccess at h
  split at h
  case h_1 n v =>
    obtain ⟨w, decoded, rfl⟩ := map_eq_ok_iff.1 h
    exact encodeAccess_of_decodeRegWrite decoded
  case h_2 a v =>
    split at h
    · obtain ⟨x, fits, rfl⟩ := map_eq_ok_iff.1 h
      exact congrArg (RawAccess.write .pay a) (fitWord_eq_ok_iff.1 fits)
    · cases h
  case h_3 => split at h <;> cases h
  case h_4 n =>
    obtain ⟨x, decoded, rfl⟩ := map_eq_ok_iff.1 h
    exact congrArg (RawAccess.read .reg) (number_of_decodeRegRead decoded)
  all_goals split at h <;> cases h; rfl

/-- Settles O5: each target by its own number or address, and back by what its decoding went through. -/
theorem hostAccessDecodeEncode : Obligations.HostAccessDecodeEncode :=
  ⟨decodeAccess_encodeAccess, fun _ _ => encodeAccess_of_decodeAccess⟩

/-! ## Well-formed accesses -/

/-- The value of an operand write has the width of its register (R44). -/
theorem OperandWrite.value_lt (w : OperandWrite) : w.value < 2 ^ targetWidth .reg w.number := by
  cases w <;> exact BitVec.isLt _

theorem OperandWrite.target_ok (w : OperandWrite) :
    (targetExists .reg w.number && targetWritable .reg w.number) = true := by
  cases w <;> rfl

theorem ReadReg.target_ok (r : ReadReg) :
    (targetExists .reg r.number && targetReadable .reg r.number) = true := by
  cases r <;> rfl

theorem wellFormed_encodeAccess (a : HostAccess) : (encodeAccess a).wellFormed = true := by
  cases a with
  | write w =>
    cases w with
    | cmd v => exact decide_eq_true v.isLt
    | reg w => exact Bool.and_eq_true_iff.2 ⟨w.target_ok, decide_eq_true w.value_lt⟩
    | pay a v =>
      exact Bool.and_eq_true_iff.2 ⟨Bool.and_eq_true_iff.2 ⟨decide_eq_true a.isLt, rfl⟩, decide_eq_true v.isLt⟩
  | read r =>
    cases r with
    | reg r => exact r.target_ok
    | pay a => exact Bool.and_eq_true_iff.2 ⟨decide_eq_true a.isLt, rfl⟩
    | pb o => exact Bool.and_eq_true_iff.2 ⟨decide_eq_true o.isLt, rfl⟩

/-- A register that may be written takes every value of its width (R40, R44). -/
theorem decodeRegWrite_of_wellFormed {n v : Nat} (h : (RawAccess.write .reg n v).wellFormed = true) :
    ∃ w, decodeRegWrite n v = .ok w := by
  simp only [RawAccess.wellFormed, Bool.and_eq_true, decide_eq_true_eq] at h
  obtain ⟨⟨-, writable⟩, fits⟩ := h
  have number : n = 0 ∨ 2 ≤ n ∧ n ≤ 13 := by simpa [targetWritable] using writable
  rcases number with rfl | ⟨atLeast, atMost⟩
  · exact ⟨_, map_eq_ok_iff.2 ⟨_, fitWord_of_lt fits, rfl⟩⟩
  · interval_cases n
    all_goals exact ⟨_, map_eq_ok_iff.2 ⟨_, fitWord_of_lt fits, rfl⟩⟩

/-- A register that may be read is one (R100). -/
theorem decodeRegRead_of_wellFormed {n : Nat} (h : (RawAccess.read .reg n).wellFormed = true) :
    ∃ r, decodeRegRead n = .ok r := by
  obtain ⟨exist, readable⟩ := Bool.and_eq_true_iff.1 h
  have small : n ≤ 15 := of_decide_eq_true exist
  have positive : 0 < n := Nat.pos_of_ne_zero (bne_iff_ne.1 readable)
  interval_cases n
  all_goals exact ⟨_, rfl⟩

theorem decodeAccess_of_wellFormed {r : RawAccess} (h : r.wellFormed = true) : ∃ a, decodeAccess r = .ok a := by
  match r with
  | .write .reg n v =>
    obtain ⟨w, decoded⟩ := decodeRegWrite_of_wellFormed h
    exact ⟨_, map_eq_ok_iff.2 ⟨w, decoded, rfl⟩⟩
  | .write .pay a v =>
    simp only [RawAccess.wellFormed, Bool.and_eq_true, decide_eq_true_eq] at h
    obtain ⟨⟨exist, -⟩, fits⟩ := h
    exact ⟨_, (dif_pos (of_decide_eq_true exist)).trans (map_eq_ok_iff.2 ⟨_, fitWord_of_lt fits, rfl⟩)⟩
  | .write .pb o v => simp [RawAccess.wellFormed, targetWritable] at h
  | .read .reg n =>
    obtain ⟨x, decoded⟩ := decodeRegRead_of_wellFormed h
    exact ⟨_, map_eq_ok_iff.2 ⟨x, decoded, rfl⟩⟩
  | .read .pay a => exact ⟨_, dif_pos (of_decide_eq_true (Bool.and_eq_true_iff.1 h).1)⟩
  | .read .pb o => exact ⟨_, dif_pos (of_decide_eq_true (Bool.and_eq_true_iff.1 h).1)⟩

/-- Settles O6: a well-formed access decodes space by space; what decodes is an encoding, and those are well formed. -/
theorem accessDecodesIffWellFormed : Obligations.AccessDecodesIffWellFormed := by
  refine fun r => ⟨decodeAccess_of_wellFormed, fun ⟨a, decoded⟩ => ?_⟩
  rw [← encodeAccess_of_decodeAccess decoded]
  exact wellFormed_encodeAccess a

/-! ## Command words -/

/-- Settles O3: the three answers of the decoder. -/
theorem opcodeMapDecodes : Obligations.OpcodeMapDecodes := by
  refine ⟨by decide, by decide, fun v notEncode notAidsend => ?_⟩
  rcases Machine.decode_cases v with ⟨rfl, _⟩ | ⟨rfl, _⟩ | ⟨_, _, illegal⟩
  · exact absurd rfl notEncode
  · exact absurd rfl notAidsend
  · exact illegal

/-- Settles O4: each command's word as a byte and as a table word; a byte that decodes to a command is one of the two
legal codes. -/
theorem commandDecodeEncode : Obligations.CommandDecodeEncode := by
  refine ⟨fun i _ => ?_, fun v i decoded => ?_⟩
  · cases i <;> decide
  · rcases Machine.decode_cases v with ⟨rfl, e⟩ | ⟨rfl, e⟩ | ⟨_, _, e⟩
    · cases e.symm.trans decoded; decide
    · cases e.symm.trans decoded; decide
    · cases e.symm.trans decoded

end Sys2Proof
end

section
/-! PROOF. Everything a step of the machine can do, by the agent that takes it and by what a host write meets
(00_scope R8, 41_frame_encoder R101, R104). -/

namespace Sys2Proof.Machine

/-! ## A host write -/

/-- The frame of an accepted ENCODE: the frame registers latched from the operands, the frame started (R105). -/
abbrev State.startEncode (s : State) : State := (s.latch s.cls s.id (s.plen.extractLsb' 0 16) .srcPay).startFrame

/-- The ways a host write can go, in the order of the checks (R167). -/
inductive WriteTaken (s : State) : HostWrite → State → Prop where
  | ignored (w : HostWrite) (frozen : s.err ≠ 0#3) : WriteTaken s w s
  | refused (w : HostWrite) (clear : s.err = 0#3) (busy : s.phase ≠ .idle) : WriteTaken s w (s.raise .overlap)
  | illegal {v : Byte} (ready : s.ready) (notEncode : v ≠ 0x01#8) (notAidsend : v ≠ 0x02#8) :
      WriteTaken s (.cmd v) (s.raise .illegalCmd)
  | tooLong (ready : s.ready) (long : 65535 < s.plen.toNat) : WriteTaken s (.cmd 0x01#8) (s.raise .lenRange)
  | encode (ready : s.ready) (fits : s.plen.toNat ≤ 65535) : WriteTaken s (.cmd 0x01#8) s.startEncode
  | outOfRange (ready : s.ready) (missing : s.aidOperands = none) :
      WriteTaken s (.cmd 0x02#8) (s.raise .aidRange)
  | aidsend {x : AidOperands} (ready : s.ready) (present : s.aidOperands = some x) :
      WriteTaken s (.cmd 0x02#8) (s.startAiding (pack x))
  | reg (x : OperandWrite) (ready : s.ready) : WriteTaken s (.reg x) (s.writeReg x)
  | pay (a : Fin 65535) (v : Byte) (ready : s.ready) : WriteTaken s (.pay a v) (s.writePay a v)

/-- A performed write to CMD (R104). -/
theorem writeTaken_cmd {s : State} (ready : s.ready) (v : Byte) :
    ∃ t, hostWrite (.cmd v) s = .next t ∧ WriteTaken s (.cmd v) t := by
  have dispatch := hostWrite_cmd_of_ready ready v
  split_ifs at dispatch with isEncode isAidsend
  · subst isEncode
    rcases s.encodeCommand_cases with ⟨long, e⟩ | ⟨fits, e⟩ <;> rw [e] at dispatch
    · exact ⟨_, dispatch, .tooLong ready long⟩
    · exact ⟨_, dispatch, .encode ready fits⟩
  · subst isAidsend
    rcases s.aidsendCommand_cases with ⟨missing, e⟩ | ⟨x, present, e⟩ <;> rw [e] at dispatch
    · exact ⟨_, dispatch, .outOfRange ready missing⟩
    · exact ⟨_, dispatch, .aidsend ready present⟩
  · exact ⟨_, dispatch, .illegal ready isEncode isAidsend⟩

/-- Every host write answers a next state, in one of these ways (R101). -/
theorem hostWrite_writeTaken (w : HostWrite) (s : State) :
    ∃ t, hostWrite w s = .next t ∧ WriteTaken s w t := by
  by_cases frozen : s.err ≠ 0#3
  · exact ⟨s, by rw [hostWrite_not_ready (.inl frozen), if_neg frozen], .ignored w frozen⟩
  have clear : s.err = 0#3 := not_not.1 frozen
  by_cases busy : s.phase ≠ .idle
  · exact ⟨_, by rw [hostWrite_not_ready (.inr busy), if_pos clear], .refused w clear busy⟩
  have ready : s.ready := ⟨clear, not_not.1 busy⟩
  cases w with
  | cmd v => exact writeTaken_cmd ready v
  | reg x => exact ⟨_, hostWrite_reg_of_ready ready x, .reg x ready⟩
  | pay a v => exact ⟨_, hostWrite_pay_of_ready ready a v, .pay a v ready⟩

theorem WriteTaken.of_hostWrite {w : HostWrite} {s t : State} (h : hostWrite w s = .next t) : WriteTaken s w t := by
  obtain ⟨u, answer, taken⟩ := hostWrite_writeTaken w s
  cases h.symm.trans answer
  exact taken

/-! ## A step -/

/-- The ways a step can go, by its agent: the sequencer, a host read (a WAIT that ends is one), a host write, a
reset (R8). -/
inductive StepTaken (s t : State) : Prop where
  | sequencer (l : List Turn) (seq : seqStep (s.withTurns l) = .next t)
  | read (l : List Turn) (v : HostWord) (handed : t = (s.withTurns l).handHost v)
  | write (w : HostWrite) (rest : List Turn) (turn : s.env.turns = .host (.write w) :: rest)
      (written : hostWrite w (s.withTurns rest) = .next t)
  | reset (rest : List Turn) (turn : s.env.turns = .reset :: rest) (cleared : t = (s.withTurns rest).resetStep)

theorem StepTaken.of_step {s t : State} (h : step s = .next t) : StepTaken s t := by
  rcases step_cases s with ⟨_, e⟩ | ⟨rest, _, e⟩ | ⟨_, _, _, e⟩ | ⟨rest, _, _, e⟩ | ⟨r, rest, _, e⟩ |
    ⟨w, rest, turn, e⟩ | ⟨rest, turn, e⟩ <;> rw [e] at h
  · exact .sequencer s.env.turns h
  · exact .sequencer rest h
  · exact .sequencer s.env.turns h
  · exact .read rest _ (Host.Outcome.next.inj h).symm
  · exact .read rest _ (Host.Outcome.next.inj h).symm
  · exact .write w rest turn h
  · exact .reset rest turn (Host.Outcome.next.inj h).symm

end Sys2Proof.Machine
end

section
/-! PROOF. The invariant: it holds at reset, every step keeps it, and no step stops where it holds (10_state R25). -/

namespace Sys2Proof.Machine

/-! ## The shape of TX -/

@[simp] theorem txShape_append (l m : List SinkEvent) : txShape (l ++ m) = m.foldl TxShape.after (txShape l) :=
  List.foldl_append

/-- Data bytes leave an open transaction open. -/
theorem foldl_after_data (f : List Byte) : (f.map SinkEvent.data).foldl TxShape.after .opened = .opened := by
  induction f with
  | nil => rfl
  | cons b f ih => exact ih

theorem txShape_append_begin {l : List SinkEvent} (closed : txShape l = .closed) (f : List Byte) :
    txShape (l ++ .beginTx Config.sinkAddr :: f.map .data) = .opened := by
  have opens : TxShape.after .closed (.beginTx Config.sinkAddr) = .opened := if_pos rfl
  rw [txShape_append, closed, List.foldl_cons, opens, foldl_after_data]

theorem txShape_append_transaction {l : List SinkEvent} (closed : txShape l = .closed) (f : List Byte)
    (r : SinkAnswer) : txShape (l ++ transaction f r) = .closed := by
  have whole : l ++ transaction f r = (l ++ .beginTx Config.sinkAddr :: f.map .data) ++ [.endTx r] := by
    simp [transaction]
  rw [whole, txShape_append, txShape_append_begin closed]
  rfl

theorem txShape_openEvents {s : State} {l : List SinkEvent} (closed : txShape l = .closed) :
    txShape (l ++ s.openEvents) = if s.phase.txOpen then .opened else .closed := by
  unfold State.openEvents
  split
  · exact txShape_append_begin closed _
  · rwa [List.append_nil]

/-! ## The invariant, idle and in flight -/

/-- While FENC is idle the invariant asks nothing of the accumulators and of idx, and TX is complete transactions. -/
theorem State.Inv.of_idle {s : State} (idle : s.phase = .idle)
    (aidRegs : s.fSrc = .srcPb → s.fLen.toNat = 48 ∧ s.fCls = Config.aidClass ∧ s.fId = Config.aidId)
    (oneResult : ¬(s.done = true ∧ s.txfail = true)) (errCode : s.err.toNat ≤ 4) (closed : txShape s.tx = .closed)
    (canonical : Memory.wf s.pay = true) : s.Inv where
  idxBelow := by simp [idle]
  idxZero := fun _ busy => absurd idle busy
  aidRegs := aidRegs
  oneResult := oneResult
  noResultInFlight := fun busy => absurd idle busy
  errCode := errCode
  errInFlight := fun busy => absurd idle busy
  txWhole := by simpa [idle, Phase.txOpen] using closed
  txOpenPart := ⟨s.tx, by simp [State.openEvents, idle, Phase.txOpen], closed⟩
  checksum := fun busy => absurd idle busy
  payCanonical := canonical

/-- While a frame is in flight the invariant is what `InFlight` says, over a history of complete transactions. -/
theorem State.InFlight.inv {tx0 : List SinkEvent} {s : State} (h : s.InFlight tx0) (closed : txShape tx0 = .closed)
    (aidRegs : s.fSrc = .srcPb → s.fLen.toNat = 48 ∧ s.fCls = Config.aidClass ∧ s.fId = Config.aidId)
    (errOverlap : s.err = 0#3 ∨ s.err = 3#3) (canonical : Memory.wf s.pay = true) : s.Inv where
  idxBelow := h.idxBelow
  idxZero := fun notPayload _ => h.idxZero notPayload
  aidRegs := aidRegs
  oneResult := by simp [h.noResult.1]
  noResultInFlight := fun _ => h.noResult
  errCode := by rcases errOverlap with e | e <;> simp [e]
  errInFlight := fun _ => errOverlap
  txWhole := by rw [h.txPart, txShape_openEvents closed]
  txOpenPart := ⟨tx0, h.txPart, closed⟩
  checksum := fun _ => h.checksum
  payCanonical := canonical

theorem State.Inv.inFlight {s : State} (h : s.Inv) (busy : s.phase ≠ .idle) :
    ∃ tx0, s.InFlight tx0 ∧ txShape tx0 = .closed := by
  obtain ⟨tx0, txPart, closed⟩ := h.txOpenPart
  exact ⟨tx0, ⟨busy, h.idxBelow, fun notPayload => h.idxZero notPayload busy, fun src => (h.aidRegs src).1,
    h.noResultInFlight busy, txPart, h.checksum busy⟩, closed⟩

theorem State.Inv.closed_of_idle {s : State} (h : s.Inv) (idle : s.phase = .idle) : txShape s.tx = .closed := by
  simpa [idle, Phase.txOpen] using h.txWhole

/-! ## What the invariant does not read -/

theorem State.Inv.withEnv {s : State} (h : s.Inv) (e : Environment) : State.Inv { s with env := e } :=
  ⟨h.1, h.2, h.3, h.4, h.5, h.6, h.7, h.8, h.9, h.10, h.11⟩

theorem State.Inv.writeReg {s : State} (h : s.Inv) (x : OperandWrite) : (s.writeReg x).Inv := by
  rw [s.writeReg_eq_operand_update x]
  exact ⟨h.1, h.2, h.3, h.4, h.5, h.6, h.7, h.8, h.9, h.10, h.11⟩

/-! ## Each agent's step -/

theorem ErrorCause.code_le (e : ErrorCause) : e.code.toNat ≤ 4 := by cases e <;> decide

/-- An error may be recorded while FENC is idle, and `Overlap` in any phase. -/
theorem State.Inv.raise {s : State} (h : s.Inv) {e : ErrorCause} (fits : s.phase = .idle ∨ e = .overlap) :
    (s.raise e).Inv :=
  ⟨h.1, h.2, h.3, h.4, h.5, e.code_le,
    fun busy => .inr (by rw [s.raise_err, fits.resolve_left busy]; rfl), h.8, h.9, h.10, h.11⟩

theorem State.Inv.writePay {s : State} (h : s.Inv) (idle : s.phase = .idle) (a : Fin 65535) (v : Byte) :
    (s.writePay a v).Inv :=
  .of_idle idle h.aidRegs h.oneResult h.errCode (h.closed_of_idle idle) (s.writePay_wf a v h.payCanonical)

theorem State.startEncode_inFlight (s : State) : s.startEncode.InFlight s.tx :=
  State.inFlight_of_beginTx (s := s.startEncode) rfl rfl (fun src => by cases src) ⟨rfl, rfl⟩ rfl

theorem State.startAiding_inFlight (s : State) (B : AidBuffer) : (s.startAiding B).InFlight s.tx :=
  State.inFlight_of_beginTx (s := s.startAiding B) rfl rfl (fun _ => rfl) ⟨rfl, rfl⟩ rfl

theorem State.Inv.startEncode {s : State} (h : s.Inv) (ready : s.ready) : s.startEncode.Inv :=
  s.startEncode_inFlight.inv (h.closed_of_idle ready.2) (fun src => by cases src) (.inl ready.1) h.payCanonical

theorem State.Inv.startAiding {s : State} (h : s.Inv) (ready : s.ready) (B : AidBuffer) : (s.startAiding B).Inv :=
  (s.startAiding_inFlight B).inv (h.closed_of_idle ready.2) (fun _ => ⟨rfl, rfl, rfl⟩) (.inl ready.1) h.payCanonical

theorem State.Inv.hostWrite {w : HostWrite} {s t : State} (h : s.Inv) (written : WriteTaken s w t) : t.Inv := by
  cases written with
  | ignored => exact h
  | refused => exact h.raise (.inr rfl)
  | illegal ready => exact h.raise (.inl ready.2)
  | tooLong ready => exact h.raise (.inl ready.2)
  | encode ready => exact h.startEncode ready
  | outOfRange ready => exact h.raise (.inl ready.2)
  | aidsend ready => exact h.startAiding ready _
  | reg x => exact h.writeReg x
  | pay a v ready => exact h.writePay ready.2 a v

/-- A sequencer step answers a next state and keeps the invariant: in flight the frame goes on or lands. -/
theorem State.Inv.seqStep {s : State} (h : s.Inv) : ∃ t, seqStep s = .next t ∧ t.Inv := by
  by_cases idle : s.phase = .idle
  · exact ⟨s, seqStep_idle idle, h⟩
  obtain ⟨tx0, flight, closed⟩ := h.inFlight idle
  obtain ⟨t, answer, same, -, -, goesOn | ⟨-, landed⟩⟩ := seqStep_inFlight flight
  all_goals
    refine ⟨t, answer, ?_⟩
    have aidRegs : t.fSrc = .srcPb → t.fLen.toNat = 48 ∧ t.fCls = Config.aidClass ∧ t.fId = Config.aidId := by
      obtain ⟨hcls, hid, hlen, hsrc⟩ := FrameRegs.mk.inj same.frameRegs
      rw [hcls, hid, hlen, hsrc]
      exact h.aidRegs
    have canonical : Memory.wf t.pay = true := same.pay ▸ h.payCanonical
  · exact goesOn.1.inv closed aidRegs (same.err ▸ h.errInFlight idle) canonical
  · refine .of_idle landed.idle aidRegs ?_ (same.err ▸ h.errCode) ?_ canonical
    · rw [landed.done, landed.txfail]
      cases s.sinkAck <;> decide
    · rw [landed.tx]
      exact txShape_append_transaction closed _ _

/-- A reset closes an open transaction with `Abort` (R181). -/
theorem State.Inv.resetStep {s : State} (h : s.Inv) : s.resetStep.Inv := by
  refine .of_idle rfl (fun src => by cases src) (by simp) (by simp) ?_ rfl
  rw [s.resetStep_tx]
  have whole := h.txWhole
  split at whole
  · rw [if_pos ‹_›, txShape_append, whole]; rfl
  · rw [if_neg ‹_›, whole]

/-- Settles O47: the invariant agent by agent; a frame in flight by what one sequencer step does to it. -/
theorem stepKeepsInvariant : Obligations.StepKeepsInvariant := by
  intro s t h stepped
  cases StepTaken.of_step stepped with
  | sequencer l seq =>
    obtain ⟨u, answer, inv⟩ := State.Inv.seqStep (h.withEnv _ : (s.withTurns l).Inv)
    cases seq.symm.trans answer
    exact inv
  | read l v handed => rw [handed]; exact h.withEnv _
  | write w rest _ written =>
    exact State.Inv.hostWrite (h.withEnv _ : (s.withTurns rest).Inv) (.of_hostWrite written)
  | reset rest _ cleared => rw [cleared]; exact State.Inv.resetStep (h.withEnv _ : (s.withTurns rest).Inv)

/-- Settles O46: FENC is idle after reset, with nothing in TX and nothing written. -/
theorem resetMeetsInvariant : Obligations.ResetMeetsInvariant :=
  ⟨.of_idle rfl (fun src => by cases src) (by decide) (by decide) rfl rfl, fun _ _ => Vector.getElem_replicate _⟩

/-- Settles O48: the sequencer's step is the only one that could stop, and the invariant gives its payload byte. -/
theorem invariantStepsNeverStop : Obligations.InvariantStepsNeverStop := by
  intro s h
  have seq (l : List Turn) : ∃ t, Machine.seqStep (s.withTurns l) = .next t :=
    have ⟨t, answer, _⟩ := State.Inv.seqStep (h.withEnv _ : (s.withTurns l).Inv)
    ⟨t, answer⟩
  rcases step_cases s with ⟨_, e⟩ | ⟨rest, _, e⟩ | ⟨_, _, _, e⟩ | ⟨_, _, _, e⟩ | ⟨_, _, _, e⟩ |
    ⟨w, rest, _, e⟩ | ⟨_, _, e⟩ <;> rw [e]
  · exact seq s.env.turns
  · exact seq rest
  · exact seq s.env.turns
  · exact ⟨_, rfl⟩
  · exact ⟨_, rfl⟩
  · obtain ⟨t, answer, _⟩ := hostWrite_writeTaken w (s.withTurns rest)
    exact ⟨t, answer⟩
  · exact ⟨_, rfl⟩

end Sys2Proof.Machine
end

section
/-! PROOF. Whose turn it is, what the host is handed, and the values after a reset (00_scope R8, 41_frame_encoder R100,
70_reset_and_hazards R180). -/

namespace Sys2Proof.Machine

/-- Settles O1: the step turn by turn; a write of a command code is dispatched to the command's meaning. -/
theorem stepRunsDecodedCommand : Obligations.StepRunsDecodedCommand := by
  refine fun s rest => ⟨fun a => step_host_turn, fun v i turn decoded => ?_, step_sequencer_turn, step_reset_turn,
    fun turn => ?_, step_no_turn⟩
  · rw [step_host_turn turn]
    simp only [hostStep, hostWrite, commandWrite, decoded]
  · split
    · exact step_wait_idle turn ‹_›
    · exact step_wait_busy turn ‹_›

/-- A command is the host write of its code to CMD (R104; log entry 3). -/
theorem exec_eq_hostWrite (i : Instr) (s : State) : exec i s = hostWrite (.cmd (encode i)) s := by
  cases i <;> rfl

/-- A command placed by `withFetchWord` is the host's next write to CMD. -/
theorem State.withFetchWord_encode (s : State) (i : Instr) :
    s.withFetchWord 8 (encode i).toNat = s.withTurns (.host (.write (.cmd (encode i))) :: s.env.turns) := by
  cases i <;> rfl

/-- Settles O2: the placed turn is taken, the turns that stood behind it are as before, and the write is the command. -/
theorem placedCommandRunsNext : Obligations.PlacedCommandRunsNext := by
  intro s i
  rw [s.withFetchWord_encode, step_host_turn rfl, s.withTurns_withTurns, s.withTurns_self, exec_eq_hostWrite]
  rfl

/-- What a read answers does not depend on the environment (R100). -/
theorem hostRead_handHost (r : HostRead) (s : State) (v : HostWord) : hostRead r (s.handHost v) = hostRead r s := by
  cases r with
  | reg x => cases x <;> rfl
  | pay a => rfl
  | pb o => rfl

/-- Settles O8: the value handed over is the only change. -/
theorem readHandsTheValue : Obligations.ReadHandsTheValue := by
  intro r s t answer
  rw [← Host.Outcome.next.inj answer]
  exact ⟨rfl, hostRead_handHost r s _⟩

/-- Settles O49: a reset turn is one `resetStep`, which writes the values of `State.reset`. -/
theorem resetGivesResetValues : Obligations.ResetGivesResetValues := by
  intro s rest turn
  refine ⟨_, step_reset_turn turn, rfl, fun _ => Vector.getElem_replicate _, rfl, rfl, rfl, rfl, rfl, rfl, rfl, rfl, ?_,
    rfl, fun _ => rfl⟩
  exact BitVec.eq_of_toNat_eq (State.status_toNat _)

end Sys2Proof.Machine
end

section
/-! PROOF. The commands: what an accepted one makes of the state, and what no command changes (41_frame_encoder R105,
42_aiding_packer R139). -/

namespace Sys2Proof.Machine

/-! ## Accepted commands -/

/-- Settles O19: the accepted way of a performed ENCODE. -/
theorem encodeAccepted : Obligations.EncodeAccepted := by
  intro s clear idle fits
  refine ⟨?_, latched_length fits⟩
  rw [exec_encode_of_ready ⟨clear, idle⟩]
  rcases s.encodeCommand_cases with ⟨long, _⟩ | ⟨_, e⟩
  · exact absurd fits (Nat.not_le.2 long)
  · rw [e]; rfl

/-- The start of an aiding frame as one update of the state (R139, R107). -/
theorem State.startAiding_eq (s : State) (B : AidBuffer) :
    s.startAiding B = { s with
      pb := B
      fCls := Config.aidClass, fId := Config.aidId, fLen := 48#16, fSrc := .srcPb
      done := false, txfail := false, ckA := 0#8, ckB := 0#8, idx := 0#16, phase := .beginTx } := rfl

@[simp] theorem State.startAiding_operandRegs (s : State) (B : AidBuffer) :
    (s.startAiding B).operandRegs = s.operandRegs := rfl

/-- An AIDSEND whose coordinates scale starts the frame of the packed operands (R139). -/
theorem State.aidsendCommand_of_scale {s : State} {la lo al : Int} (hlat : scale s.lat 10000000 = some la)
    (hlon : scale s.lon 10000000 = some lo) (halt : scale s.alt 1000 = some al) :
    s.aidsendCommand =
      s.startAiding (pack ⟨Config.aidMask, la, lo, al, s.year, s.month, s.day, s.hour, s.minute, s.second⟩) := by
  rw [State.aidsendCommand, State.aidOperands_eq_some hlat hlon halt]

/-- Settles O20: the accepted way of a performed AIDSEND. -/
theorem aidsendAccepted : Obligations.AidsendAccepted := by
  intro s la lo al clear idle hlat hlon halt
  rw [exec_aidsend_of_ready ⟨clear, idle⟩, State.aidsendCommand_of_scale hlat hlon halt, State.startAiding_eq]

/-- The latched frame is the frame of its message when the payload is the message's and the length field says its
length (R61). -/
theorem State.frame_eq_frameNow {s : State} (src : s.fSrc = .srcPb → s.fLen.toNat = 48) :
    frame s.fCls s.fId s.payload = some s.frameNow := by
  have len := State.payload_length src
  have bound := s.fLen.isLt
  rw [frame_of_length_le _ _ (by omega), len, BitVec.ofNat_toNat, BitVec.setWidth_eq]
  rfl

/-- The payload latched by an accepted ENCODE is PAY[0..PLEN-1] (R105). -/
theorem State.payload_startEncode {s : State} (fits : s.plen.toNat ≤ 65535) :
    s.startEncode.payload = (List.range s.plen.toNat).map s.payByte := by
  rw [State.payload_of_srcPay rfl, State.startFrame_fLen, State.latch_fLen, latched_length fits]
  rfl

/-- The frame of an aiding frame just started carries the buffer it was started with (R139). -/
theorem State.frame_startAiding (s : State) (B : AidBuffer) :
    frame Config.aidClass Config.aidId B.toList = some (s.startAiding B).frameNow := by
  rw [← s.payload_startAiding B]
  exact State.frame_eq_frameNow fun _ => rfl

/-- The frame of an accepted ENCODE (R105). -/
theorem State.frame_startEncode {s : State} (fits : s.plen.toNat ≤ 65535) :
    frame s.cls s.id ((List.range s.plen.toNat).map s.payByte) = some s.startEncode.frameNow := by
  rw [← State.payload_startEncode fits]
  exact State.frame_eq_frameNow fun src => by cases src

/-- Settles O21: the frame of the latched registers and payload, which are those of the message. -/
theorem acceptedCommandLatchesItsFrame : Obligations.AcceptedCommandLatchesItsFrame := by
  intro s ready
  refine ⟨fun fits => ?_, fun la lo al hlat hlon halt => ?_⟩
  · have len : s.startEncode.frameNow.length = 8 + (s.plen.extractLsb' 0 16).toNat :=
        State.frameNow_length fun src => by cases src
    rw [latched_length fits] at len
    exact ⟨_, _, (encodeAccepted s ready.1 ready.2 fits).1, rfl, ready.1, rfl, State.frame_startEncode fits, rfl, len⟩
  · rw [exec_aidsend_of_ready ready, State.aidsendCommand_of_scale hlat hlon halt]
    exact ⟨_, _, rfl, s.startAiding_phase _, (s.startAiding_err _).trans ready.1, s.startAiding_tx _,
      s.frame_startAiding _, rfl, State.frameNow_length fun _ => rfl⟩

/-! ## Any command -/

/-- Settles O23: a command is a host write, and those always answer. -/
theorem commandsNeverStop : Obligations.CommandsNeverStop := by
  intro i s
  obtain ⟨t, answer, _⟩ := hostWrite_writeTaken (.cmd (encode i)) s
  exact ⟨t, (exec_eq_hostWrite i s).trans answer⟩

/-- A write to CMD records an error, is ignored, or starts a frame from a ready FENC without a change of ERR; only
0x02 rewrites PB (R104, R164). -/
theorem WriteTaken.cmd_cases {s t : State} {v : Byte} (taken : WriteTaken s (.cmd v) t) :
    t = s ∨ (s.err = 0#3 ∧ ∃ e, t = s.raise e) ∨
      (s.ready ∧ t.phase = .beginTx ∧ t.done = false ∧ t.txfail = false ∧ t.err = s.err ∧
        t.operandRegs = s.operandRegs ∧ t.pay = s.pay ∧ t.payDraw = s.payDraw ∧ t.tx = s.tx ∧ t.env = s.env ∧
        (v ≠ 0x02#8 → t.pb = s.pb)) := by
  cases taken with
  | ignored => exact .inl rfl
  | refused _ clear => exact .inr (.inl ⟨clear, _, rfl⟩)
  | illegal ready => exact .inr (.inl ⟨ready.1, _, rfl⟩)
  | tooLong ready => exact .inr (.inl ⟨ready.1, _, rfl⟩)
  | outOfRange ready => exact .inr (.inl ⟨ready.1, _, rfl⟩)
  | encode ready => exact .inr (.inr ⟨ready, rfl, rfl, rfl, rfl, rfl, rfl, rfl, rfl, rfl, fun _ => rfl⟩)
  | aidsend ready => exact .inr (.inr ⟨ready, by simp⟩)

theorem State.payByte_congr {s t : State} (pay : t.pay = s.pay) (draw : t.payDraw = s.payDraw) (a : Nat) :
    t.payByte a = s.payByte a := by
  rw [State.payByte, State.payByte, pay, draw]

theorem ErrorCause.code_ne_zero (e : ErrorCause) : e.code ≠ 0#3 := by cases e <;> decide

/-- Settles O22: a command ignored, turned away or rejected, or accepted. -/
theorem commandFrame : Obligations.CommandFrame := by
  intro i s t answer
  rw [exec_eq_hostWrite] at answer
  rcases (WriteTaken.of_hostWrite answer).cmd_cases with rfl | ⟨clear, e, rfl⟩ |
    ⟨ready, phase, done, txfail, err, operands, pay, draw, tx, env, pb⟩
  · exact ⟨rfl, fun _ => rfl, rfl, rfl, rfl, fun _ => rfl, absurd rfl, fun _ => .inl rfl⟩
  · refine ⟨rfl, fun _ => rfl, rfl, rfl, rfl, fun _ => rfl, fun _ => rfl, fun same => ?_⟩
    rw [s.raise_err, clear] at same
    exact absurd same e.code_ne_zero
  · exact ⟨operands, State.payByte_congr pay draw, pay, tx, env, fun isEncode => pb (by rw [isEncode]; decide),
      absurd err, fun _ => .inr ⟨ready.2, phase, done, txfail⟩⟩

end Sys2Proof.Machine
end

section
/-! PROOF. The sequencer: its step phase by phase, and what no step of it changes (41_frame_encoder R112, R113). -/

namespace Sys2Proof.Machine

/-! ## Phase by phase -/

/-- Settles O43: the step of each phase; the two bytes of F_LEN as digits of its value. -/
theorem sequencerPhases : Obligations.SequencerPhases := by
  intro s
  have low : (s.fLen.extractLsb' 0 8).toNat = s.fLen.toNat % 256 := by
    rw [toNat_extractByte, pow_zero, Nat.div_one]
  have high : (s.fLen.extractLsb' 8 8).toNat = s.fLen.toNat / 256 := by
    have bound := s.fLen.isLt
    rw [toNat_extractByte]
    omega
  have empty : s.fLen = 0#16 ↔ s.fLen.toNat = 0 := BitVec.toNat_eq
  refine ⟨fun h => ?_, fun h => ?_, fun h => ?_, fun h => ?_, fun h => ?_, fun h => ⟨_, low, ?_⟩,
    fun h => ⟨_, high, ?_⟩, fun h => ?_, fun h => ?_, fun h => ⟨s.endStep, ?_, ?_⟩⟩
  case refine_11 => simp [State.endStep]
  all_goals simp only [seqStep, h, empty]
  all_goals rfl

/-- One step of a frame's payload, whatever byte the source gives (R112, R113). -/
theorem seqStep_payload {s : State} {b : Byte} (phase : s.phase = .payload) (byte : s.psrc s.idx.toNat = some b) :
    seqStep s =
      if s.idx + 1#16 = s.fLen then .next { s.emitSummed b with idx := 0#16, phase := .ckA }
      else .next { s.emitSummed b with idx := s.idx + 1#16 } := by
  simp only [seqStep, phase, State.payloadStep, byte]

/-- The byte a payload source gives, by source (R113). -/
theorem State.psrc_eq_some {s : State} {k : Nat} {b : Byte} (h : s.psrc k = some b) :
    (s.fSrc = .srcPay → b = s.payByte k) ∧ (s.fSrc = .srcPb → ∃ inside : k < 48, b = s.pb[k]) := by
  unfold State.psrc at h
  refine ⟨fun src => ?_, fun src => ?_⟩ <;> rw [src] at h
  · obtain ⟨-, e⟩ := Option.ite_none_right_eq_some.1 h
    exact (Option.some.inj e).symm
  · obtain ⟨inside, e⟩ := Vector.getElem?_eq_some_iff.1 h
    exact ⟨inside, e.symm⟩

/-- Settles O44: the source has a byte at every index of the frame; the step after it depends on whether that was the
last one, and idx does not wrap. -/
theorem payloadPhase : Obligations.PayloadPhase := by
  intro s phase below src
  obtain ⟨b, byte⟩ := State.psrc_isSome src below
  obtain ⟨fromPay, fromPb⟩ := State.psrc_eq_some byte
  have next : (s.idx + 1#16).toNat = s.idx.toNat + 1 := by
    have bound := s.fLen.isLt
    exact BitVec.toNat_add_of_lt (show s.idx.toNat + 1 < 2 ^ 16 by omega)
  have last : s.idx + 1#16 = s.fLen ↔ s.idx.toNat + 1 = s.fLen.toNat := by rw [← next]; exact BitVec.toNat_eq
  have answer := seqStep_payload phase byte
  refine ⟨b, fromPay, fromPb, fun isLast => ?_, fun goesOn => ⟨_, next, ?_⟩⟩
  · rw [answer, if_pos (last.2 isLast)]; rfl
  · rw [answer, if_neg fun e => goesOn (last.1 e)]; rfl

/-! ## In every phase -/

/-- Only the end of a transaction writes a result flag or takes an answer (R112). -/
theorem seqStep_result {s t : State} (h : seqStep s = .next t) (notEnd : s.phase ≠ .endTx) :
    t.done = s.done ∧ t.txfail = s.txfail ∧ t.env = s.env := by
  unfold seqStep at h
  split at h
  case h_9 =>
    unfold State.payloadStep at h
    split at h
    · cases h
    · split at h <;> cases h <;> exact ⟨rfl, rfl, rfl⟩
  case h_12 isEnd => exact absurd isEnd notEnd
  all_goals cases h; exact ⟨rfl, rfl, rfl⟩

/-- Settles O45: the frame's data by `SameFrame`, the result by the phase. -/
theorem sequencerFrame : Obligations.SequencerFrame := by
  intro s t h
  obtain ⟨same, turns, hostData⟩ := seqStep_sameFrame h
  refine ⟨same.operandRegs, State.payByte_congr same.pay same.payDraw, same.pay, same.pb, same.frameRegs, same.err,
    turns, hostData, seqStep_result h, fun idle => ?_⟩
  rw [seqStep_idle idle] at h
  exact (Host.Outcome.next.inj h).symm

end Sys2Proof.Machine
end

section
/-! PROOF. What any step can and cannot change: STATUS under the invariant, errors that stand, PB, TX, a frame's data in
flight, and what starts a frame (10_state R14, R17, R22, R25; 60_exceptions R166, R168). -/

namespace Sys2Proof.Machine

/-! ## STATUS -/

theorem State.status_bit0 (s : State) : s.status.getLsbD 0 = s.busy := by
  simp only [State.status, BitVec.getLsbD_append]
  simp

theorem State.status_bit1 (s : State) : s.status.getLsbD 1 = s.done := by
  simp only [State.status, BitVec.getLsbD_append]
  simp

theorem State.status_bit2 (s : State) : s.status.getLsbD 2 = s.txfail := by
  simp only [State.status, BitVec.getLsbD_append]
  simp

theorem State.status_err (s : State) : (s.status.extractLsb' 4 3).toNat = s.err.toNat := by
  have bound := s.err.isLt
  rw [BitVec.extractLsb'_toNat, Nat.shiftRight_eq_div_pow, s.status_toNat]
  have := s.busy.toNat_le
  have := s.done.toNat_le
  have := s.txfail.toNat_le
  omega

theorem State.busy_iff (s : State) : s.busy = true ↔ s.phase ≠ .idle := bne_iff_ne

/-- While BUSY is set, STATUS holds the code 0 or that of `Overlap` (95_test_vectors T8). -/
theorem State.Inv.status_busy {s : State} (h : s.Inv) (busy : s.status.getLsbD 0 = true) :
    (s.status.extractLsb' 4 3).toNat = 0 ∨ (s.status.extractLsb' 4 3).toNat = 3 := by
  rw [s.status_bit0, s.busy_iff] at busy
  rw [s.status_err]
  exact (h.errInFlight busy).imp (congrArg BitVec.toNat) (congrArg BitVec.toNat)

/-- Settles O10: the bits of STATUS are the flags, of which the invariant speaks. -/
theorem statusNeverRead : Obligations.StatusNeverRead := by
  intro s h
  have never (v : Byte) (busy : v.getLsbD 0 = true)
      (code : ¬((v.extractLsb' 4 3).toNat = 0 ∨ (v.extractLsb' 4 3).toNat = 3)) : s.status ≠ v := by
    rintro rfl
    exact code (h.status_busy busy)
  refine ⟨s.status_bit3, s.status_bit7, ?_, ?_, never _ rfl (by decide), never _ rfl (by decide),
    never _ rfl (by decide), s.status_err ▸ h.errCode⟩
  · rw [s.status_bit1, s.status_bit2]
    exact h.oneResult
  · rw [s.status_bit0, s.status_bit1, s.status_bit2, s.busy_iff]
    rintro ⟨busy, flag⟩
    obtain ⟨noDone, noFail⟩ := h.noResultInFlight busy
    simp [noDone, noFail] at flag

/-! ## PB -/

/-- A host write rewrites PB by starting an aiding frame only (R17). -/
theorem WriteTaken.pb {s t : State} {w : HostWrite} (taken : WriteTaken s w t) :
    t.pb = s.pb ∨ (s.ready ∧ w = .cmd 0x02#8 ∧ t.phase = .beginTx ∧ ∃ x, t.pb = pack x) := by
  cases taken with
  | aidsend ready => exact .inr ⟨ready, rfl, s.startAiding_phase _, _, s.startAiding_pb _⟩
  | reg x => rw [s.writeReg_eq_operand_update x]; exact .inl rfl
  | _ => exact .inl rfl

/-- Settles O34: agent by agent, only a reset and an accepted AIDSEND touch PB. -/
theorem onlyAidsendWritesPb : Obligations.OnlyAidsendWritesPb := by
  intro s t stepped changed
  cases StepTaken.of_step stepped with
  | sequencer l seq => exact absurd (seqStep_sameFrame seq).1.pb changed
  | read l v handed => exact absurd (congrArg State.pb handed) changed
  | write w rest turn written =>
    rcases (WriteTaken.of_hostWrite written).pb with same | ⟨ready, rfl, phase, _⟩
    · exact absurd same changed
    · exact .inr ⟨ready, phase, rest, turn⟩
  | reset rest turn => exact .inl ⟨rest, turn⟩

/-- No field of the AidingPayload takes a reserved byte (R63, R64). -/
theorem pack_reserved (x : AidOperands) (o : Fin 48) (reserved : (2 ≤ o.val ∧ o.val ≤ 15) ∨ 35 ≤ o.val) :
    (pack x)[o] = 0#8 := by
  simp only [pack, put8_getElem, put16le_getElem, put32le_getElem]
  repeat rw [if_neg (by omega)]
  exact Vector.getElem_replicate _

/-- Settles O35: PB is kept, packed afresh, or cleared. -/
theorem reservedBytesStayZero : Obligations.ReservedBytesStayZero := by
  intro s t zero stepped o reserved
  cases StepTaken.of_step stepped with
  | sequencer l seq =>
    rw [(seqStep_sameFrame seq).1.pb]
    exact zero o reserved
  | read l v handed =>
    rw [handed]
    exact zero o reserved
  | write w rest turn written =>
    rcases (WriteTaken.of_hostWrite written).pb with same | ⟨_, _, _, x, packed⟩
    · rw [same]; exact zero o reserved
    · rw [packed]; exact pack_reserved x o reserved
  | reset rest turn cleared =>
    rw [cleared]
    exact Vector.getElem_replicate _

/-! ## TX -/

theorem WriteTaken.tx {s t : State} {w : HostWrite} (taken : WriteTaken s w t) : t.tx = s.tx := by
  cases taken with
  | aidsend => exact s.startAiding_tx _
  | reg x => rw [s.writeReg_eq_operand_update x]
  | _ => rfl

/-- Settles O51: the sequencer appends at most one event, a reset at most `Abort`, the host none. -/
theorem txOnlyGrows : Obligations.TxOnlyGrows := by
  intro s t stepped
  cases StepTaken.of_step stepped with
  | sequencer l seq => exact seqStep_tx (s := s.withTurns l) seq
  | read l v handed => rw [handed]; exact .inl rfl
  | write w rest turn written => exact .inl (WriteTaken.of_hostWrite written).tx
  | reset rest turn cleared =>
    rw [cleared, State.resetStep_tx]
    split
    · exact .inr ⟨_, rfl⟩
    · exact .inl rfl

/-! ## Frozen or busy -/

/-- While FENC is frozen or busy, no step but a reset touches the data of a frame; the host records at most
`Overlap` (R165, R166). -/
theorem step_not_ready {s t : State} (notReady : s.err ≠ 0#3 ∨ s.phase ≠ .idle)
    (noReset : ∀ rest, s.env.turns ≠ .reset :: rest) (stepped : step s = .next t) :
    t.operandRegs = s.operandRegs ∧ t.pay = s.pay ∧ t.payDraw = s.payDraw ∧ t.pb = s.pb ∧
      t.frameRegs = s.frameRegs ∧ (s.err ≠ 0#3 → t.err = s.err) := by
  cases StepTaken.of_step stepped with
  | sequencer l seq =>
    obtain ⟨operands, pay, draw, pb, frameRegs, err⟩ := (seqStep_sameFrame seq).1
    exact ⟨operands, pay, draw, pb, frameRegs, fun _ => err⟩
  | read l v handed => rw [handed]; exact ⟨rfl, rfl, rfl, rfl, rfl, fun _ => rfl⟩
  | write w rest turn written =>
    rw [hostWrite_not_ready (s := s.withTurns rest) notReady] at written
    rw [← Host.Outcome.next.inj written]
    split
    · exact ⟨rfl, rfl, rfl, rfl, rfl, absurd ‹_›⟩
    · exact ⟨rfl, rfl, rfl, rfl, rfl, fun _ => rfl⟩
  | reset rest turn => exact absurd turn (noReset rest)

/-- Settles O52: busy, by what no step but a reset touches. -/
theorem busyLocksFrameData : Obligations.BusyLocksFrameData := by
  intro s t busy noReset stepped
  obtain ⟨operands, pay, draw, pb, frameRegs, -⟩ := step_not_ready (.inr busy) noReset stepped
  exact ⟨operands, State.payByte_congr pay draw, pay, pb, frameRegs⟩

/-! ## What starts a frame -/

/-- A host write leaves IDLE by a legal command in a ready FENC, for BEGIN (R101, R117). -/
theorem WriteTaken.phase {s t : State} {w : HostWrite} (taken : WriteTaken s w t) :
    t.phase = s.phase ∨ (s.ready ∧ t.phase = .beginTx ∧ ∃ v, w = .cmd v ∧ legalCommand v = true) := by
  cases taken with
  | encode ready => exact .inr ⟨ready, rfl, _, rfl, rfl⟩
  | aidsend ready => exact .inr ⟨ready, s.startAiding_phase _, _, rfl, rfl⟩
  | reg x => rw [s.writeReg_eq_operand_update x]; exact .inl rfl
  | _ => exact .inl rfl

/-- Settles O53: from IDLE the sequencer, a read and a reset stay there; a write leaves it as `WriteTaken.phase`
says. -/
theorem onlyCommandsStartFrames : Obligations.OnlyCommandsStartFrames := by
  intro s t stepped idle leaves
  cases StepTaken.of_step stepped with
  | sequencer l seq =>
    rw [seqStep_idle (s := s.withTurns l) idle] at seq
    rw [← Host.Outcome.next.inj seq] at leaves
    exact absurd idle leaves
  | read l v handed => rw [handed] at leaves; exact absurd idle leaves
  | write w rest turn written =>
    rcases (WriteTaken.of_hostWrite written).phase with same | ⟨ready, begins, v, rfl, legal⟩
    · exact absurd (same.trans idle) leaves
    · exact ⟨ready.1, begins, v, rest, turn, legal⟩
  | reset rest turn cleared => rw [cleared] at leaves; exact absurd rfl leaves

/-- Settles O18: frozen, by what no step but a reset touches; from idle no frame is started, and so TX has no one to
write it. -/
theorem errorStandsUntilReset : Obligations.ErrorStandsUntilReset := by
  intro s t frozen noReset stepped
  obtain ⟨operands, pay, draw, pb, frameRegs, err⟩ := step_not_ready (.inl frozen) noReset stepped
  refine ⟨err frozen, fun idle => ?_, operands, State.payByte_congr pay draw, pb, frameRegs⟩
  refine ⟨by_contra fun leaves => frozen (onlyCommandsStartFrames s t stepped idle leaves).1, ?_⟩
  cases StepTaken.of_step stepped with
  | sequencer l seq =>
    rw [seqStep_idle (s := s.withTurns l) idle] at seq
    rw [← Host.Outcome.next.inj seq]
    rfl
  | read l v handed => rw [handed]; rfl
  | write w rest turn written => exact (WriteTaken.of_hostWrite written).tx
  | reset rest turn => exact absurd turn (noReset rest)

end Sys2Proof.Machine
end

section
/-! PROOF. The checksum in closed form, and one flipped bit (40_checksum section 4). -/

namespace Sys2Proof.Machine

/-! ## The closed form -/

/-- The sum in which byte `i` of a list of length `m` weighs `m - i` (40_checksum section 4). -/
def weightedSum (l : List Byte) : Nat := (l.zipIdx.map fun x => (l.length - x.2) * x.1.toNat).sum

/-- The first byte weighs as much as the list is long; the weight of each byte after it is its weight in the tail. -/
theorem weightedSum_cons (b : Byte) (l : List Byte) :
    weightedSum (b :: l) = (l.length + 1) * b.toNat + weightedSum l := by
  simp [weightedSum, List.zipIdx_succ, Function.comp_def]

/-- The accumulation of a list from any accumulators: what ckA held is added to ckB once for every byte. -/
theorem foldl_ckPair_toNat (l : List Byte) (ab : Byte × Byte) :
    (l.foldl ckPair ab).1.toNat = (ab.1.toNat + (l.map BitVec.toNat).sum) % 256 ∧
      (l.foldl ckPair ab).2.toNat = (ab.2.toNat + l.length * ab.1.toNat + weightedSum l) % 256 := by
  induction l generalizing ab with
  | nil =>
    have := ab.1.isLt
    have := ab.2.isLt
    simp only [weightedSum, List.foldl_nil, List.map_nil, List.zipIdx_nil, List.sum_nil, List.length_nil]
    omega
  | cons b l ih =>
    obtain ⟨first, second⟩ := ih (ckPair ab b)
    rw [List.foldl_cons, first, second, ckPair_snd_toNat, ckPair_fst_toNat, weightedSum_cons, List.map_cons,
      List.sum_cons, List.length_cons]
    have added := Nat.mod_modEq (ab.1.toNat + b.toNat) 256
    refine ⟨by omega, ?_⟩
    calc ((ab.2.toNat + (ab.1.toNat + b.toNat) % 256) % 256 + l.length * ((ab.1.toNat + b.toNat) % 256) +
          weightedSum l) % 256
      _ = (ab.2.toNat + (ab.1.toNat + b.toNat) + l.length * (ab.1.toNat + b.toNat) + weightedSum l) % 256 :=
        (((Nat.mod_modEq _ _).trans (added.add_left _)).add (added.mul_left _)).add_right _
      _ = (ab.2.toNat + (l.length + 1) * ab.1.toNat + ((l.length + 1) * b.toNat + weightedSum l)) % 256 := by
        ring_nf

/-- Settles O27: the accumulation from (0, 0). -/
theorem cksumClosedForm : Obligations.CksumClosedForm := by
  intro l
  obtain ⟨first, second⟩ := foldl_ckPair_toNat l (0#8, 0#8)
  simp only [BitVec.toNat_ofNat, Nat.zero_mod, Nat.zero_add, Nat.mul_zero] at first second
  exact ⟨first, second⟩

/-! ## One flipped bit -/

/-- What one replaced byte makes of the byte sum. -/
theorem sum_map_set {l : List Byte} {i : Nat} (inside : i < l.length) (c : Byte) :
    ((l.set i c).map BitVec.toNat).sum =
      ((l.take i).map BitVec.toNat).sum + (c.toNat + ((l.drop (i + 1)).map BitVec.toNat).sum) := by
  rw [List.set_eq_take_append_cons_drop, if_pos inside, List.map_append, List.sum_append, List.map_cons, List.sum_cons]

/-- Two lists that differ in one byte have different byte sums modulo 256. -/
theorem cksum_set_fst_ne {l : List Byte} {i : Nat} {b c : Byte} (h : l[i]? = some b) (differ : c ≠ b) :
    (cksum (l.set i c)).1 ≠ (cksum l).1 := by
  obtain ⟨inside, rfl⟩ := List.getElem?_eq_some_iff.1 h
  have before := sum_map_set inside l[i]
  rw [List.set_getElem_self] at before
  intro same
  have sums := congrArg BitVec.toNat same
  rw [(cksumClosedForm _).1, (cksumClosedForm _).1, before, sum_map_set inside] at sums
  refine differ (BitVec.eq_of_toNat_eq ?_)
  have := c.isLt
  have := l[i].isLt
  omega

theorem xor_one_shiftLeft_ne (b : Byte) {k : Nat} (h : k < 8) : b ^^^ (1#8 <<< k) ≠ b := by
  have bit : ∀ k < 8, 1#8 <<< k ≠ 0#8 := by decide
  intro same
  exact bit k h (by simpa using same)

/-- Settles O29: the flipped byte differs, so the byte sum does. -/
theorem singleBitChangesChecksum : Obligations.SingleBitChangesChecksum :=
  fun _ _ b _ h hk => cksum_set_fst_ne h (xor_one_shiftLeft_ne b hk)

end Sys2Proof.Machine
end

section
/-! PROOF. The binary64 patterns, and the two roundings of `Scale` against plain arithmetic in units of 2^-1074
(30_encoding R68, 42_aiding_packer R132, R133; log entry 11). -/

namespace Sys2Proof.Machine

/-! ## The patterns -/

/-- Settles O36: the three fields are the digits of the pattern. -/
theorem binary64Classes : Obligations.Binary64Classes := by
  intro w
  have exponent : expField w = w.toNat / 2 ^ 52 % 2 ^ 11 := by
    rw [expField, BitVec.extractLsb'_toNat, Nat.shiftRight_eq_div_pow]
  have fraction : fracField w = w.toNat % 2 ^ 52 := by
    rw [fracField, BitVec.extractLsb'_toNat, Nat.shiftRight_zero]
  have sign : w.msb = decide (2 ^ 63 ≤ w.toNat) := BitVec.msb_eq_decide w
  have bound := w.isLt
  refine ⟨w.msb, expField w, fracField w, ?_, by omega, by omega, rfl⟩
  rw [sign]
  by_cases high : 2 ^ 63 ≤ w.toNat
  · rw [if_pos (decide_eq_true high)]; omega
  · rw [if_neg (by simpa using high)]; omega

/-! ## `Scale` as a composition -/

theorem fitsI32_iff (n : Int) : fitsI32 n = true ↔ -2147483648 ≤ n ∧ n ≤ 2147483647 := by
  simp [fitsI32]

theorem scale_of_expField {w : Double} (h : expField w = 2047) (k : Nat) : scale w k = none := by
  unfold scale Binary64.ofPattern
  rw [if_pos h]
  by_cases zero : fracField w = 0
  · rw [if_pos zero]
  · rw [if_neg zero]

theorem scale_of_rn64_none {w : Double} {k : Nat} {neg : Bool} {sig ex : Nat}
    (pattern : Binary64.ofPattern w = .finite neg sig ex) (infinite : rn64 (sig * k) ex = none) : scale w k = none := by
  simp only [scale, pattern, infinite]

theorem scale_of_rn64_some {w : Double} {k : Nat} {neg : Bool} {sig ex q x : Nat}
    (pattern : Binary64.ofPattern w = .finite neg sig ex) (rounded : rn64 (sig * k) ex = some (q, x)) :
    scale w k =
      if -2147483648 ≤ roundHalfAway neg q x ∧ roundHalfAway neg q x ≤ 2147483647 then some (roundHalfAway neg q x)
      else none := by
  simp only [scale, pattern, rounded, fitsI32_iff]

/-- Settles O37: the pattern's class, then `RN64`, then the range of the rounded integer. -/
theorem scaleRange : Obligations.ScaleRange := by
  intro w k
  refine ⟨fun h => scale_of_expField h k, fun n answer => ?_,
    fun neg sig ex pattern => ⟨?_, fun q x rounded lo hi => ?_⟩⟩
  · obtain ⟨_, _, _, _, _, _, _, fits⟩ := scale_some answer
    exact (fitsI32_iff n).1 fits
  · cases rounded : rn64 (sig * k) ex with
    | none => simp [scale_of_rn64_none pattern rounded]
    | some p =>
      obtain ⟨q, x⟩ := p
      simp [scale_of_rn64_some pattern rounded]
  · rw [scale_of_rn64_some pattern rounded, if_pos ⟨lo, hi⟩]

/-! ## `RN64` -/

/-- What `RN64` answers, and that it is below 2^1024 (R132). -/
theorem rn64_some {m e q x : Nat} (h : rn64 m e = some (q, x)) :
    q = roundHalfEven m (excessBits m) ∧ x = e + excessBits m ∧ q * 2 ^ x < 2 ^ 2098 := by
  rcases rn64_cases m e with ⟨none, _⟩ | ⟨some, small⟩
  · rw [none] at h; cases h
  · obtain ⟨rfl, rfl⟩ := Prod.mk.inj (Option.some.inj (some.symm.trans h))
    refine ⟨rfl, rfl, ?_⟩
    rcases Nat.eq_zero_or_pos (roundHalfEven m (excessBits m)) with zero | pos
    · rewrite [zero, Nat.zero_mul]
      exact pow_pos two_pos 2098
    · exact (log2_add_lt_iff _ _ _ (.inr pos)).1 (by omega)

/-- `q * U` is the magnitude `M` rounded to a 53-bit significand, ties to even: either nothing is cut off, or the
significand has 53 bits and `U` is the unit of its last place. -/
structure Rounded (M q U : Nat) : Prop where
  above : 2 * M ≤ 2 * (q * U) + U
  below : 2 * (q * U) ≤ 2 * M + U
  tie : 2 * M = 2 * (q * U) + U ∨ 2 * (q * U) = 2 * M + U → q % 2 = 0
  normal : (M = q * U ∧ q < 2 ^ 53) ∨ (2 ^ 52 * U ≤ M ∧ 2 ^ 52 ≤ q ∧ q ≤ 2 ^ 53)

/-- Scaling a rounding by a power of two. -/
theorem Rounded.scaled {m q D : Nat} (h : Rounded m q D) (P : Nat) (pos : 0 < P) : Rounded (m * P) q (P * D) := by
  obtain ⟨above, below, tie, normal⟩ := h
  have value : q * (P * D) = (q * D) * P := by ring
  refine ⟨?_, ?_, fun half => tie ?_, ?_⟩
  · calc 2 * (m * P) = (2 * m) * P := by ring
      _ ≤ (2 * (q * D) + D) * P := Nat.mul_le_mul_right P above
      _ = 2 * (q * (P * D)) + P * D := by ring
  · calc 2 * (q * (P * D)) = (2 * (q * D)) * P := by ring
      _ ≤ (2 * m + D) * P := Nat.mul_le_mul_right P below
      _ = 2 * (m * P) + P * D := by ring
  · refine half.imp (fun e => Nat.eq_of_mul_eq_mul_right pos ?_) (fun e => Nat.eq_of_mul_eq_mul_right pos ?_)
    · linarith
    · linarith
  · refine normal.imp (fun ⟨e, small⟩ => ⟨by rw [e, value], small⟩) (fun ⟨lower, bounds⟩ => ⟨?_, bounds⟩)
    calc 2 ^ 52 * (P * D) = (2 ^ 52 * D) * P := by ring
      _ ≤ m * P := Nat.mul_le_mul_right P lower

theorem rounded_roundHalfEven (m : Nat) : Rounded m (roundHalfEven m (excessBits m)) (2 ^ excessBits m) := by
  obtain ⟨above, below, tie⟩ := roundHalfEven_spec m (excessBits m)
  refine ⟨above, below, tie, ?_⟩
  rcases Nat.eq_zero_or_pos (excessBits m) with fits | cut
  · rw [fits, roundHalfEven_zero, pow_zero, Nat.mul_one]
    exact .inl ⟨rfl, lt_of_excessBits_zero fits⟩
  · exact .inr ⟨(excessBits_bounds cut).1, le_significand cut, significand_le m⟩

/-- The rounding of `RN64` in units of 2^-1074 (log entry 11). -/
theorem rounded_scaled (m e : Nat) :
    Rounded (m * 2 ^ e) (roundHalfEven m (excessBits m)) (2 ^ (e + excessBits m)) := by
  rw [pow_add]
  exact (rounded_roundHalfEven m).scaled (2 ^ e) (Nat.two_pow_pos e)

theorem Rounded.of_rn64 {m e q x : Nat} (h : rn64 m e = some (q, x)) : Rounded (m * 2 ^ e) q (2 ^ x) := by
  obtain ⟨rfl, rfl, -⟩ := rn64_some h
  exact rounded_scaled m e

theorem Rounded.significand_le {M q U : Nat} (h : Rounded M q U) : q ≤ 2 ^ 53 := by
  rcases h.normal with ⟨-, small⟩ | ⟨-, -, small⟩
  · exact small.le
  · exact small

/-- The error is at most half a unit of the last place, and the tie rule holds there. -/
theorem Rounded.error {M q U : Nat} (h : Rounded M q U) :
    2 * |(M : Int) - q * U| ≤ U ∧ (2 * |(M : Int) - q * U| = U → q % 2 = 0) := by
  have above : (2 * M : Int) ≤ 2 * (q * U) + U := by exact_mod_cast h.above
  have below : (2 * (q * U) : Int) ≤ 2 * M + U := by exact_mod_cast h.below
  rcases abs_cases ((M : Int) - q * U) with ⟨e, _⟩ | ⟨e, _⟩ <;> rw [e]
  · exact ⟨by linarith, fun half => h.tie (.inl (by zify; linarith))⟩
  · exact ⟨by linarith, fun half => h.tie (.inr (by zify; linarith))⟩

/-- No other multiple of the last place is nearer, and one that is as near makes a tie. -/
theorem Rounded.nearest_multiple {M q U : Nat} (h : Rounded M q U) (c : Nat) :
    |(M : Int) - q * U| ≤ |(M : Int) - c * U| ∧
      (|(M : Int) - q * U| = |(M : Int) - c * U| → c ≠ q → q % 2 = 0) := by
  obtain ⟨error, tie⟩ := h.error
  rcases eq_or_ne c q with rfl | differ
  · exact ⟨le_rfl, fun _ ne => absurd rfl ne⟩
  have apart : (U : Int) ≤ |((q : Int) - c) * U| := by
    have one : (1 : Int) ≤ |(q : Int) - c| := Int.one_le_abs (by omega)
    rw [abs_mul, Nat.abs_cast]
    nlinarith
  have triangle : |((q : Int) - c) * U| ≤ |(M : Int) - c * U| + |(M : Int) - q * U| := by
    have : ((q : Int) - c) * U = (M - c * U) - (M - q * U) := by ring
    rw [this]
    exact abs_sub _ _
  exact ⟨by linarith, fun same _ => tie (by linarith)⟩

/-- A magnitude below a multiple that is below `M` is farther than that multiple. -/
theorem Rounded.nearer_than_below {M q U N K : Nat} (h : Rounded M q U) (below : N < K * U) (le : K * U ≤ M) :
    |(M : Int) - q * U| < |(M : Int) - N| := by
  have least := (h.nearest_multiple K).1
  have below : (N : Int) < K * U := by exact_mod_cast below
  have le : (K * U : Int) ≤ M := by exact_mod_cast le
  rw [abs_of_nonneg (by linarith : (0 : Int) ≤ M - K * U)] at least
  rw [abs_of_nonneg (by linarith : (0 : Int) ≤ M - N)]
  linarith

/-- A magnitude with a short significand is a multiple of the last place, or lies below the binade of the answer, where
the least magnitude of the binade is nearer. -/
theorem Rounded.nearest {M q x : Nat} (h : Rounded M q (2 ^ x)) {a : Nat} (short : a < 2 ^ 53) (b : Nat) :
    |(M : Int) - (q * 2 ^ x : Nat)| ≤ |(M : Int) - (a * 2 ^ b : Nat)| ∧
      (|(M : Int) - (q * 2 ^ x : Nat)| = |(M : Int) - (a * 2 ^ b : Nat)| → a * 2 ^ b ≠ q * 2 ^ x → q % 2 = 0) := by
  rcases Nat.lt_or_ge b x with finer | coarser
  · rcases h.normal with ⟨uncut, -⟩ | ⟨normal, -, -⟩
    · rw [uncut, sub_self, abs_zero]
      refine ⟨abs_nonneg _, fun same other => absurd ?_ other⟩
      exact_mod_cast (sub_eq_zero.1 (abs_eq_zero.1 same.symm)).symm
    · have below : a * 2 ^ b < 2 ^ 52 * 2 ^ x := calc
        a * 2 ^ b < 2 ^ 53 * 2 ^ b := Nat.mul_lt_mul_of_pos_right short (Nat.two_pow_pos b)
        _ = 2 ^ 52 * 2 ^ (b + 1) := by ring
        _ ≤ 2 ^ 52 * 2 ^ x := Nat.mul_le_mul_left _ (Nat.pow_le_pow_right (by decide) finer)
      have nearer := h.nearer_than_below below normal
      push_cast at nearer ⊢
      exact ⟨nearer.le, fun same => absurd same nearer.ne⟩
  · have multiple : a * 2 ^ b = (a * 2 ^ (b - x)) * 2 ^ x := by
      rw [mul_assoc, ← pow_add, Nat.sub_add_cancel coarser]
    obtain ⟨least, tie⟩ := h.nearest_multiple (a * 2 ^ (b - x))
    rw [multiple, Nat.cast_mul q, Nat.cast_mul (a * 2 ^ (b - x))]
    exact ⟨least, fun same other => tie same fun e => other (by rw [e])⟩

/-- Settles O38: the answer is the rounded magnitude. -/
theorem productRoundsToNearest : Obligations.ProductRoundsToNearest := by
  intro m e q x answer
  have rounded := Rounded.of_rn64 answer
  refine ⟨rounded.significand_le, (rn64_some answer).2.2, fun a b short => ?_⟩
  have nearest := rounded.nearest short b
  push_cast at nearest
  exact nearest

/-! ## Overflow -/

/-- A magnitude rounds to 2^54 units `2 ^ w` or more exactly from 2^54 - 1 of them on: a last place below two units
leaves both sides short, one of two units rounds the tie at 2^54 - 1 up, and a coarser one meets no magnitude in
between. -/
theorem Rounded.overflow_iff {M q x w : Nat} (h : Rounded M q (2 ^ x)) :
    2 ^ 54 * 2 ^ w ≤ q * 2 ^ x ↔ (2 ^ 54 - 1) * 2 ^ w ≤ M := by
  obtain ⟨above, below, tie, normal⟩ := h
  have pos : 0 < 2 ^ w := Nat.two_pow_pos w
  rcases Nat.lt_trichotomy x (w + 1) with small | rfl | large
  · have place : 2 ^ x ≤ 2 ^ w := Nat.pow_le_pow_right (by decide) (by omega)
    have bound : q * 2 ^ x ≤ 2 ^ 53 * 2 ^ w := Nat.mul_le_mul (by omega) place
    omega
  · have value : q * 2 ^ (w + 1) = 2 * (q * 2 ^ w) := by ring
    rcases lt_trichotomy q (2 ^ 53 - 1) with lt | rfl | gt
    · have bound : q * 2 ^ w ≤ (2 ^ 53 - 2) * 2 ^ w := Nat.mul_le_mul_right _ (by omega)
      omega
    · omega
    · have bound : 2 ^ 53 * 2 ^ w ≤ q * 2 ^ w := Nat.mul_le_mul_right _ (by omega)
      omega
  · have place : 4 * 2 ^ w ≤ 2 ^ x := by
      rw [show 4 * 2 ^ w = 2 ^ (w + 2) by ring]
      exact Nat.pow_le_pow_right (by decide) large
    rcases normal with ⟨uncut, -⟩ | ⟨normal, lower, -⟩
    · obtain ⟨j, rfl⟩ : ∃ j, x = w + 2 + j := ⟨x - (w + 2), by omega⟩
      have value : q * 2 ^ (w + 2 + j) = (4 * (q * 2 ^ j)) * 2 ^ w := by ring
      rw [uncut, value]
      rw [Nat.mul_le_mul_right_iff pos, Nat.mul_le_mul_right_iff pos]
      omega
    · have bound : 2 ^ 52 * 2 ^ x ≤ q * 2 ^ x := Nat.mul_le_mul_right _ lower
      omega

/-- `RN64` is an infinity exactly when the rounded magnitude is at least 2^1024 (R132). -/
theorem rn64_eq_none_iff (m e : Nat) :
    rn64 m e = none ↔ 2 ^ 2098 ≤ roundHalfEven m (excessBits m) * 2 ^ (e + excessBits m) := by
  have size (q x : Nat) : (q ≠ 0 ∧ 2098 ≤ Nat.log2 q + x) ↔ 2 ^ 2098 ≤ q * 2 ^ x := by
    rcases Nat.eq_zero_or_pos q with rfl | pos
    · have := Nat.two_pow_pos 2098
      simp only [Nat.zero_mul]
      omega
    · rw [← not_lt, ← not_lt, log2_add_lt_iff q x 2098 (.inr pos), and_iff_right pos.ne']
  rw [← size]
  rcases rn64_cases m e with ⟨none, large⟩ | ⟨some, small⟩
  · exact iff_of_true none large
  · exact iff_of_false (by simp [some]) small

/-- `RN64` is an infinity exactly from 2^1024 - 2^970 on, which is 2^54 - 1 halves of the last place there (R132). -/
theorem rn64_eq_none_iff_le (m e : Nat) : rn64 m e = none ↔ (2 ^ 54 - 1) * 2 ^ 2044 ≤ m * 2 ^ e := by
  rw [rn64_eq_none_iff, ← (rounded_scaled m e).overflow_iff, ← pow_add]

/-- Settles O39: the threshold as a multiple of 2^2044. -/
theorem productOverflow : Obligations.ProductOverflow := by
  intro m e
  rw [rn64_eq_none_iff_le, Nat.sub_mul, ← pow_add, Nat.one_mul]

/-! ## Rounding half away -/

/-- Less than a unit added to a whole number of units does not reach the next whole number. -/
theorem mul_add_two_pow_div (n : Nat) {k K : Nat} (h : k < K) : (n * 2 ^ K + 2 ^ k) / 2 ^ K = n := by
  rw [Nat.add_comm, Nat.add_mul_div_right _ _ (Nat.two_pow_pos K),
    Nat.div_eq_of_lt (Nat.pow_lt_pow_right (by decide) h), Nat.zero_add]

/-- `floor(r + 1/2)` of the magnitude, in units of 2^-1074 (R133). -/
theorem roundHalfUp_eq (m e : Nat) : roundHalfUp m e = (m * 2 ^ e + 2 ^ 1073) / 2 ^ 1074 := by
  unfold roundHalfUp
  split
  · rename_i whole
    have value : m * 2 ^ e = (m * 2 ^ (e - 1074)) * 2 ^ 1074 := by
      rw [mul_assoc, ← pow_add, Nat.sub_add_cancel whole]
    rw [value, mul_add_two_pow_div _ (by decide)]
  · obtain ⟨k, hk⟩ : ∃ k, 1073 = k + e := ⟨1073 - e, by omega⟩
    have half : m * 2 ^ e + 2 ^ 1073 = (m + 2 ^ k) * 2 ^ e := by rewrite [hk, pow_add, Nat.add_mul]; rfl
    have unit : 2 ^ 1074 = (2 ^ k * 2) * 2 ^ e := by
      rewrite [show 1074 = k + e + 1 by omega, pow_succ, pow_add, Nat.mul_right_comm]; rfl
    rw [half, unit, Nat.mul_div_mul_right _ _ (Nat.two_pow_pos e), ← Nat.div_div_eq_div_mul,
      Nat.add_div_right _ (Nat.two_pow_pos k), show 1073 - e = k by omega, Nat.shiftRight_eq_div_pow,
      Nat.shiftRight_eq_div_pow, pow_one]

/-- The integer nearest to a magnitude, ties up, in units of 2^-1074 (R133). -/
theorem roundHalfUp_bounds (m e : Nat) :
    roundHalfUp m e * 2 ^ 1074 ≤ m * 2 ^ e + 2 ^ 1073 ∧ m * 2 ^ e + 2 ^ 1073 < (roundHalfUp m e + 1) * 2 ^ 1074 := by
  rw [roundHalfUp_eq]
  exact ⟨Nat.div_mul_le_self _ _, Nat.lt_mul_of_div_lt (Nat.lt_succ_self _) (pow_pos two_pos 1074)⟩

/-- Settles O40: the integer is the quotient by 2^1074. -/
theorem roundHalfAwayFloor : Obligations.RoundHalfAwayFloor :=
  fun _ m e => ⟨roundHalfUp m e, rfl, roundHalfUp_bounds m e⟩

/-! ## Exact and nearly exact products -/

/-- Rounding half away keeps an integer. -/
theorem roundHalfAway_of_integer {m e n : Nat} (whole : m * 2 ^ e = n * 2 ^ 1074) (neg : Bool) :
    roundHalfAway neg m e = if neg then -(n : Int) else (n : Int) := by
  rw [roundHalfAway, roundHalfUp_eq, whole, mul_add_two_pow_div _ (by decide)]

/-- A product that is a short integer is not rounded: it is a binary64 magnitude itself. -/
theorem rn64_of_integer {m e n : Nat} (whole : m * 2 ^ e = n * 2 ^ 1074) (short : n < 2 ^ 53) :
    ∃ q x, rn64 m e = some (q, x) ∧ q * 2 ^ x = n * 2 ^ 1074 := by
  cases answer : rn64 m e with
  | none =>
    have large := (rn64_eq_none_iff_le m e).1 answer
    have small : n * 2 ^ 1074 < (2 ^ 54 - 1) * 2 ^ 2044 :=
      Nat.mul_lt_mul_of_lt_of_le (by omega) (pow_le_pow_right₀ one_le_two (by decide)) (pow_pos two_pos 2044)
    exact absurd large (by rw [whole]; exact Nat.not_le.2 small)
  | some p =>
    obtain ⟨q, x⟩ := p
    refine ⟨q, x, rfl, ?_⟩
    have nearest := ((Rounded.of_rn64 answer).nearest short 1074).1
    rw [whole, sub_self, abs_zero] at nearest
    have same := sub_eq_zero.1 (abs_eq_zero.1 (le_antisymm nearest (abs_nonneg _)))
    exact (Nat.cast_injective same).symm

/-- Settles O41: neither rounding changes a product that is an integer of at most 32 bits. -/
theorem scaleOfExactProduct : Obligations.ScaleOfExactProduct := by
  intro w k neg sig ex n pattern whole fits
  obtain ⟨q, x, rounded, value⟩ := rn64_of_integer whole (by omega)
  rw [scale_of_rn64_some pattern rounded, roundHalfAway_of_integer value, if_pos]
  rcases fits with small | ⟨rfl, rfl⟩
  · split_ifs <;> omega
  · decide

/-- The rounding to 53 bits is off by at most 2^-53 of its answer. -/
theorem Rounded.relative_error {M q U : Nat} (h : Rounded M q U) :
    2 ^ 53 * |(M : Int) - (q * U : Nat)| ≤ (q * U : Nat) := by
  rcases h.normal with ⟨uncut, -⟩ | ⟨-, lower, -⟩
  · rw [uncut, sub_self, abs_zero]
    omega
  · have error := h.error.1
    have scaled : 2 ^ 52 * U ≤ q * U := Nat.mul_le_mul_right U lower
    push_cast
    zify at scaled
    linarith

/-- An integer `n` of at most 32 bits, within half a unit `2 * V` of a magnitude `A` whose own distance from `M` is at
most 2^-53 of it, is within one unit of `M`. -/
theorem abs_sub_lt_unit {V A M n : Int} (pos : 0 < V) (small : n ≤ 2147483648) (nearest : |n * (2 * V) - A| ≤ V)
    (error : 2 ^ 53 * |M - A| ≤ A) : |n * (2 * V) - M| < 2 * V := by
  have bound : A ≤ 4294967297 * V := by
    have := (abs_le.1 nearest).1
    nlinarith
  have tiny : |M - A| < V := by linarith
  calc |n * (2 * V) - M| ≤ |n * (2 * V) - A| + |A - M| := abs_sub_le _ _ _
    _ < 2 * V := by rw [abs_sub_comm A M]; linarith

theorem roundHalfUp_le_of_fits {neg : Bool} {m e : Nat} (fits : fitsI32 (roundHalfAway neg m e) = true) :
    (roundHalfUp m e : Int) ≤ 2147483648 := by
  obtain ⟨lo, hi⟩ := (fitsI32_iff _).1 fits
  cases neg with
  | false => rw [roundHalfAway, if_neg Bool.false_ne_true] at hi; omega
  | true => rw [roundHalfAway, if_pos rfl] at lo; omega

/-- Settles O42: half a unit from rounding to an integer, and far less than that from rounding to 53 bits. -/
theorem scaleWithinOne : Obligations.ScaleWithinOne := by
  intro w k neg sig ex n pattern answer
  obtain ⟨neg', sig', ex', ⟨q, x⟩, pattern', rounded, rfl, fits⟩ := scale_some answer
  obtain ⟨rfl, rfl, rfl⟩ := Binary64.finite.inj (pattern'.symm.trans pattern)
  have unit : (2 : Int) ^ 1074 = 2 * 2 ^ 1073 := pow_succ' 2 1073
  have error := (Rounded.of_rn64 rounded).relative_error
  obtain ⟨low, high⟩ := roundHalfUp_bounds q x
  zify at low high
  rw [unit] at low high ⊢
  have pos : (0 : Int) < 2 ^ 1073 := pow_pos two_pos 1073
  generalize (2 : Int) ^ 1073 = V at low high pos ⊢
  have near : |(roundHalfUp q x : Int) * (2 * V) - (q * 2 ^ x : Nat)| ≤ V := by
    push_cast
    exact abs_le.2 ⟨by linarith, by linarith⟩
  have within := abs_sub_lt_unit pos (roundHalfUp_le_of_fits fits) near error
  push_cast at within
  cases neg' with
  | false => simpa [roundHalfAway] using within
  | true =>
    rw [← abs_neg] at within
    simp only [roundHalfAway, if_true]
    convert within using 2
    ring

end Sys2Proof.Machine
end

section
/-! PROOF. Whole frames: with nothing scheduled, under any schedule of plain turns, and end to end from a command
(41_frame_encoder section 5). -/

namespace Sys2Proof.Machine

/-! ## The sequencer alone -/

/-- Every step is the sequencer's while a frame is in flight: nothing is scheduled, or a WAIT stands first (log entries
2 and 12). -/
def State.unattended (s : State) : Prop := s.env.turns = [] ∨ ∃ rest, s.env.turns = .wait :: rest

theorem step_unattended {s : State} (h : s.unattended) (busy : s.phase ≠ .idle) : step s = seqStep s := by
  rcases h with none | ⟨rest, wait⟩
  · exact step_no_turn none
  · exact step_wait_busy wait busy

theorem State.sinkAck_congr {s t : State} (h : t.env = s.env) : t.sinkAck = s.sinkAck := by
  rw [State.sinkAck, State.sinkAck, h]

/-- An unattended frame is in flight until its last step (R114). -/
theorem runSteps_unattended {tx0 : List SinkEvent} {s : State} (flight : s.InFlight tx0) (alone : s.unattended)
    {k : Nat} (h : k < s.stepsLeft) :
    ∃ t, runSteps k s = .next t ∧ t.InFlight tx0 ∧ s.SameFrame t ∧ t.env = s.env ∧ t.stepsLeft + k = s.stepsLeft := by
  induction k generalizing s with
  | zero => exact ⟨s, rfl, flight, .refl s, rfl, rfl⟩
  | succ k ih =>
    obtain ⟨u, answer, same, -, -, ⟨goesOn, nearer, env⟩ | ⟨last, -⟩⟩ := seqStep_inFlight flight
    · have alone' : u.unattended := by rw [State.unattended, env]; exact alone
      obtain ⟨t, run, flight', same', env', left⟩ := ih goesOn alone' (by omega)
      exact ⟨t, (runSteps_succ ((step_unattended alone flight.busy).trans answer)).trans run, flight', same.trans same',
        env'.trans env, by omega⟩
    · omega

/-- The end of a flight told from an earlier state of the same frame. -/
theorem State.Landed.congr {tx0 : List SinkEvent} {s u t : State} (h : State.Landed tx0 u t)
    (frameNow : u.frameNow = s.frameNow) (header : u.header = s.header) (payload : u.payload = s.payload)
    (ack : u.sinkAck = s.sinkAck) : State.Landed tx0 s t := by
  obtain ⟨idle, tx, done, txfail, checksum⟩ := h
  rw [frameNow, ack] at tx
  rw [ack] at done txfail
  rw [header, payload] at checksum
  exact ⟨idle, tx, done, txfail, checksum⟩

theorem State.InFlight.stepsLeft_pos {tx0 : List SinkEvent} {s : State} (h : s.InFlight tx0) : 0 < s.stepsLeft := by
  obtain ⟨t, -, -, -, -, ⟨-, nearer, -⟩ | ⟨last, -⟩⟩ := seqStep_inFlight h <;> omega

/-- An unattended frame lands with its last step (R114, R115). -/
theorem runSteps_unattended_landed {tx0 : List SinkEvent} {s : State} (flight : s.InFlight tx0)
    (alone : s.unattended) :
    ∃ t, runSteps s.stepsLeft s = .next t ∧ s.SameFrame t ∧ t.env.turns = s.env.turns ∧ State.Landed tx0 s t := by
  have pos := flight.stepsLeft_pos
  obtain ⟨u, run, flight', same, env, left⟩ := runSteps_unattended flight alone (k := s.stepsLeft - 1) (by omega)
  obtain ⟨t, answer, same', turns, -, ⟨goesOn, nearer, -⟩ | ⟨-, landed⟩⟩ := seqStep_inFlight flight'
  · have := goesOn.stepsLeft_pos
    omega
  · have alone' : u.unattended := by rw [State.unattended, env]; exact alone
    have lastStep : runSteps 1 u = .next t := runSteps_succ ((step_unattended alone' flight'.busy).trans answer)
    refine ⟨t, ?_, same.trans same', turns.trans (by rw [env]),
      landed.congr same.frameNow same.header same.payload (State.sinkAck_congr env)⟩
    rw [show s.stepsLeft = (s.stepsLeft - 1) + 1 by omega, runSteps_add run, lastStep]

theorem State.stepsLeft_of_idle {s : State} (idle : s.phase = .idle) : s.stepsLeft = 0 := by
  rw [State.stepsLeft, idle]

theorem State.stepsLeft_of_beginTx {s : State} (begins : s.phase = .beginTx) : s.stepsLeft = s.fLen.toNat + 10 := by
  rw [State.stepsLeft, begins]

/-- Settles O58: idle already, or an unattended frame in flight. -/
theorem frameEndsInItsSteps : Obligations.FrameEndsInItsSteps := by
  intro s h none
  refine ⟨State.stepsLeft_of_beginTx, ?_⟩
  by_cases idle : s.phase = .idle
  · rw [State.stepsLeft_of_idle idle]
    exact ⟨⟨s, rfl, idle, absurd idle⟩, fun k before => absurd before (Nat.not_lt_zero k)⟩
  · obtain ⟨tx0, flight, -⟩ := h.inFlight idle
    obtain ⟨t, run, -, -, landed⟩ := runSteps_unattended_landed flight (.inl none)
    refine ⟨⟨t, run, landed.idle, fun _ => ⟨landed.done, landed.txfail⟩⟩, fun k before => ?_⟩
    obtain ⟨u, run', flight', -⟩ := runSteps_unattended flight (.inl none) before
    exact ⟨u, run', flight'.busy⟩

/-- A WAIT that finds FENC idle hands the host a STATUS with BUSY = 0 and is over. -/
theorem step_wait_over {s : State} {rest : List Turn} (wait : s.env.turns = .wait :: rest) (idle : s.phase = .idle) :
    ∃ t, step s = .next t ∧ t.phase = .idle ∧ t.env.turns = rest ∧ t.err = s.err ∧
      t.env.hostData = some (.byte t.status) ∧ t.status.getLsbD 0 = false := by
  refine ⟨_, step_wait_idle wait idle, idle, rfl, rfl, rfl, ?_⟩
  rw [State.status_bit0, State.busy]
  exact bne_eq_false_iff_eq.2 idle

/-- Settles O59: the unattended frame lands, if one is in flight; then the WAIT ends. -/
theorem waitEndsIdle : Obligations.WaitEndsIdle := by
  intro s rest h wait
  by_cases idle : s.phase = .idle
  · obtain ⟨t, answer, ended⟩ := step_wait_over wait idle
    rw [State.stepsLeft_of_idle idle]
    exact ⟨t, runSteps_succ answer, ended⟩
  · obtain ⟨tx0, flight, -⟩ := h.inFlight idle
    obtain ⟨u, run, same, turns, landed⟩ := runSteps_unattended_landed flight (.inr ⟨rest, wait⟩)
    obtain ⟨t, answer, idle', turns', err, handed⟩ := step_wait_over (turns.trans wait) landed.idle
    exact ⟨t, (runSteps_add run).trans (runSteps_succ answer), idle', turns', err.trans same.err, handed⟩

/-! ## From a command to the end of its frame -/

/-- A placed command that starts a frame, with nothing else scheduled: its transaction is sent whole. -/
theorem runSteps_placed {s u : State} {i : Instr} (accepted : exec i s = .next u) (flight : u.InFlight s.tx)
    (begins : u.phase = .beginTx) (env : u.env = s.env) (none : s.env.turns = []) :
    ∃ t, runSteps (u.fLen.toNat + 11) (s.withFetchWord 8 (encode i).toNat) = .next t ∧ u.SameFrame t ∧
      t.tx = s.tx ++ transaction u.frameNow s.sinkAck ∧ t.phase = .idle ∧
      t.done = decide (s.sinkAck = .ackOk) ∧ t.txfail = decide (s.sinkAck = .ackFail) := by
  have alone : u.unattended := .inl (by rw [env]; exact none)
  obtain ⟨t, run, same, -, idle, tx, done, txfail, -⟩ := runSteps_unattended_landed flight alone
  rw [State.sinkAck_congr env] at tx done txfail
  rw [State.stepsLeft_of_beginTx begins] at run
  refine ⟨t, ?_, same, tx, idle, done, txfail⟩
  exact (runSteps_succ ((placedCommandRunsNext s i).trans accepted)).trans run

/-- Settles O55: the accepted command, then its unattended frame. -/
theorem encodeSendsItsFrame : Obligations.EncodeSendsItsFrame := by
  intro s ready fits none
  have accepted : exec .encode s = .next s.startEncode := (encodeAccepted s ready.1 ready.2 fits).1
  obtain ⟨t, run, same, tx, idle, done, txfail⟩ := runSteps_placed accepted s.startEncode_inFlight rfl rfl none
  rw [State.startFrame_fLen, State.latch_fLen, latched_length fits] at run
  exact ⟨_, t, State.frame_startEncode fits, run, tx, idle, same.err.trans ready.1, done, txfail, same.operandRegs,
    State.payByte_congr same.pay same.payDraw, same.pb⟩

/-- Settles O56: the accepted command, then its unattended frame of 48 payload bytes. -/
theorem aidsendSendsItsFrame : Obligations.AidsendSendsItsFrame := by
  intro s la lo al ready none hlat hlon halt
  have accepted := exec_aidsend_of_ready ready
  rw [State.aidsendCommand_of_scale hlat hlon halt] at accepted
  generalize pack _ = B at accepted ⊢
  obtain ⟨t, run, same, tx, idle, done, txfail⟩ :=
    runSteps_placed accepted (s.startAiding_inFlight B) rfl rfl none
  exact ⟨_, t, s.frame_startAiding B, run, tx, idle, same.err.trans ready.1, done, txfail, same.operandRegs,
    State.payByte_congr same.pay same.payDraw⟩

/-- Settles O57: both machines send the frame of one message. -/
theorem framesDependOnMessageOnly : Obligations.FramesDependOnMessageOnly := by
  intro s s' ready ready' fits none none' cls id plen bytes
  obtain ⟨f, t, message, run, tx, -⟩ := encodeSendsItsFrame s ready fits none
  obtain ⟨f', t', message', run', tx', -⟩ := encodeSendsItsFrame s' ready' (plen ▸ fits) none'
  have payload : (List.range s'.plen.toNat).map s'.payByte = (List.range s.plen.toNat).map s.payByte := by
    rw [plen]
    exact List.map_congr_left fun a below => bytes a (List.mem_range.1 below)
  rw [cls, id, payload, message] at message'
  cases message'
  rw [plen] at run'
  exact ⟨f, t, t', run, run', tx, tx'⟩

end Sys2Proof.Machine
end

section
/-! PROOF. The frame law: under any schedule of host and sequencer turns the sink gets the latched frame
(41_frame_encoder R115). -/

namespace Sys2Proof.Machine

/-- What the turns `l`, none of them the frame's last step, make of a frame in flight: it has come as many steps nearer
to landing as `l` holds sequencer turns, its data and the sink's next answer are as before, and a host write among them
has left `Overlap` where ERR was 0. -/
structure State.Advanced (tx0 : List SinkEvent) (s : State) (l : List Turn) (t : State) : Prop where
  flight : t.InFlight tx0
  steps : t.stepsLeft + sequencerTurns l = s.stepsLeft
  same : s.SameFrame { t with err := s.err }
  ack : t.sinkAck = s.sinkAck
  err : t.err = if s.err = 0#3 ∧ l.any Turn.isWrite then 3#3 else s.err

theorem State.Advanced.refl {tx0 : List SinkEvent} {s : State} (flight : s.InFlight tx0) : s.Advanced tx0 [] s :=
  ⟨flight, rfl, .refl s, rfl, by simp⟩

/-- ERR after one turn more: `Overlap` is recorded once and stands. -/
theorem overlap_append (e : BitVec 3) (p q : Bool) :
    (if (if e = 0#3 ∧ p = true then 3#3 else e) = 0#3 ∧ q = true then 3#3
      else if e = 0#3 ∧ p = true then 3#3 else e) = if e = 0#3 ∧ (p || q) = true then 3#3 else e := by
  revert e p q
  decide

theorem State.Advanced.cons {tx0 : List SinkEvent} {s t u : State} {x : Turn} {l : List Turn}
    (h : s.Advanced tx0 [x] t) (h' : t.Advanced tx0 l u) : s.Advanced tx0 (x :: l) u where
  flight := h'.flight
  steps := by
    have first := h.steps
    have later := h'.steps
    simp only [sequencerTurns, List.countP_cons, List.countP_nil] at first later ⊢
    omega
  same := by
    obtain ⟨operands, pay, draw, pb, frameRegs, -⟩ := h'.same
    exact h.same.trans ⟨operands, pay, draw, pb, frameRegs, rfl⟩
  ack := h'.ack.trans h.ack
  err := by
    have first := h.err
    rw [List.any_cons, List.any_nil, Bool.or_false] at first
    rw [h'.err, first, List.any_cons]
    exact overlap_append _ _ _

/-- A flight is no matter of the environment or of ERR. -/
theorem State.InFlight.withEnvErr {tx0 : List SinkEvent} {s : State} (h : s.InFlight tx0) (e : Environment)
    (c : BitVec 3) : State.InFlight tx0 { s with env := e, err := c } :=
  ⟨h.1, h.2, h.3, h.4, h.5, h.6, h.7⟩

/-- All a host access does to a busy FENC: a read hands over its value, a write records `Overlap` unless an error
stands (R100, R165). -/
theorem hostStep_busy {s : State} (busy : s.phase ≠ .idle) (a : HostAccess) :
    ∃ v, hostStep a s = .next { s with
      env := { s.env with hostData := v }
      err := if s.err = 0#3 ∧ [Turn.host a].any Turn.isWrite then 3#3 else s.err } := by
  cases a with
  | read r =>
    refine ⟨some (hostRead r s), (hostStep_read r s).trans ?_⟩
    rw [if_neg fun h => Bool.false_ne_true h.2]
    rfl
  | write w =>
    refine ⟨s.env.hostData, (hostWrite_not_ready (.inr busy) w).trans ?_⟩
    by_cases clear : s.err = 0#3
    · rw [if_pos clear, if_pos ⟨clear, rfl⟩]; rfl
    · rw [if_neg clear, if_neg fun h => clear h.1]

/-- One plain turn that is not the frame's last step (R115). -/
theorem step_plain {tx0 : List SinkEvent} {s : State} {x : Turn} {rest : List Turn} (flight : s.InFlight tx0)
    (turn : s.env.turns = x :: rest) (plain : x.plain = true) (notLast : sequencerTurns [x] < s.stepsLeft) :
    ∃ t, step s = .next t ∧ t.env.turns = rest ∧ s.Advanced tx0 [x] t := by
  have flight' : (s.withTurns rest).InFlight tx0 := flight.withEnvErr _ _
  cases x with
  | sequencer =>
    obtain ⟨t, answer, same, turns, -, ⟨goesOn, nearer, env⟩ | ⟨last, -⟩⟩ := seqStep_inFlight flight'
    · obtain ⟨operands, pay, draw, pb, frameRegs, err⟩ := same
      have ack : t.sinkAck = (s.withTurns rest).sinkAck := State.sinkAck_congr env
      exact ⟨t, (step_sequencer_turn turn).trans answer, turns, goesOn, nearer,
        ⟨operands, pay, draw, pb, frameRegs, rfl⟩, ack, err.trans (if_neg fun h => Bool.false_ne_true h.2).symm⟩
    · exact absurd notLast (Nat.not_lt.2 (Nat.le_of_eq last))
  | host a =>
    obtain ⟨v, answer⟩ := hostStep_busy flight'.busy a
    exact ⟨_, (step_host_turn turn).trans answer, rfl, flight'.withEnvErr _ _, rfl,
      ⟨rfl, rfl, rfl, rfl, rfl, rfl⟩, rfl, rfl⟩
  | reset => cases plain
  | wait => cases plain

/-- A schedule of plain turns that stops short of the frame's last step. -/
theorem runSteps_plain {tx0 : List SinkEvent} {l rest : List Turn} {s : State} (flight : s.InFlight tx0)
    (turns : s.env.turns = l ++ rest) (plain : ∀ x ∈ l, x.plain = true) (short : sequencerTurns l < s.stepsLeft) :
    ∃ t, runSteps l.length s = .next t ∧ t.env.turns = rest ∧ s.Advanced tx0 l t := by
  induction l generalizing s with
  | nil => exact ⟨s, rfl, turns, .refl flight⟩
  | cons x l ih =>
    have split : sequencerTurns (x :: l) = sequencerTurns [x] + sequencerTurns l :=
      List.countP_append (l₁ := [x]) (l₂ := l)
    obtain ⟨u, answer, turns', first⟩ := step_plain flight turns (plain x List.mem_cons_self) (by omega)
    have nearer := first.steps
    obtain ⟨t, run, turns'', later⟩ :=
      ih first.flight turns' (fun y hy => plain y (List.mem_cons_of_mem x hy)) (by omega)
    exact ⟨t, (runSteps_succ answer).trans run, turns'', first.cons later⟩

/-- The last two bytes of a frame are the checksum of its header and payload (R60). -/
theorem frameBytes_drop (c i : Byte) (n : Half) (p : List Byte) :
    (frameBytes c i n p).drop (6 + p.length) =
      [(cksum (frameHeader c i n ++ p)).1, (cksum (frameHeader c i n ++ p)).2] := by
  have covered : ([Config.sync1, Config.sync2] ++ frameHeader c i n ++ p).length = 6 + p.length := by
    simp
    omega
  rw [← covered, frameBytes]
  exact List.drop_left

/-- The turn that gives the sequencer the frame's last step (R115). -/
theorem step_sequencer_landed {tx0 : List SinkEvent} {s : State} {rest : List Turn} (flight : s.InFlight tx0)
    (turn : s.env.turns = .sequencer :: rest) (last : s.stepsLeft = 1) :
    ∃ t, step s = .next t ∧ s.SameFrame t ∧ t.env.turns = rest ∧ State.Landed tx0 s t := by
  obtain ⟨t, answer, ⟨operands, pay, draw, pb, frameRegs, err⟩, turns, -, ⟨goesOn, nearer, -⟩ | ⟨-, landed⟩⟩ :=
    seqStep_inFlight (flight.withEnvErr _ _ : (s.withTurns rest).InFlight tx0)
  · have pos := goesOn.stepsLeft_pos
    have left : t.stepsLeft + 1 = s.stepsLeft := nearer
    omega
  · obtain ⟨idle, tx, done, txfail, checksum⟩ := landed
    exact ⟨t, (step_sequencer_turn turn).trans answer, ⟨operands, pay, draw, pb, frameRegs, err⟩, turns, idle, tx, done,
      txfail, checksum⟩

/-- Settles O54: the schedule up to the last sequencer turn, then the step that lands the frame. -/
theorem frameLaw : Obligations.FrameLaw := by
  intro s l rest begins idx ckA ckB done txfail src plain count turns
  have flight := State.inFlight_of_beginTx begins idx src ⟨done, txfail⟩ (by rw [ckA, ckB])
  have left := State.stepsLeft_of_beginTx begins
  obtain ⟨u, run, turns', adv⟩ := runSteps_plain flight turns plain (by omega)
  have steps := adv.steps
  obtain ⟨t, answer, same, turns'', landed⟩ := step_sequencer_landed adv.flight turns' (by omega)
  have landed := landed.congr adv.same.frameNow adv.same.header adv.same.payload adv.ack
  have lastTwo := frameBytes_drop s.fCls s.fId s.fLen s.payload
  rw [State.payload_length src, ← State.header, ← landed.checksum] at lastTwo
  obtain ⟨operands, pay, draw, pb, frameRegs, -⟩ := adv.same
  exact ⟨_, t, State.frame_eq_frameNow src, (runSteps_add run).trans (runSteps_succ answer), landed.idle, landed.tx,
    lastTwo, landed.done, landed.txfail, same.operandRegs.trans operands, same.pay.trans pay,
    State.payByte_congr (same.pay.trans pay) (same.payDraw.trans draw), same.pb.trans pb,
    same.frameRegs.trans frameRegs, turns'', same.err.trans adv.err⟩

end Sys2Proof.Machine
end
